-- ==== Sys2Proof/Word.lean ====
section
/-! DEFINITION. The plain data the model is written over: bytes, and sparse tables in one canonical form. -/
namespace Sys2Proof

/-- One byte of the store. -/
abbrev Byte := BitVec 8

/-- A run of bytes, the lowest address first. -/
abbrev Bytes := List Byte

/-- A sparse table: keys strictly rising, and no entry for a key that reads as the table's default. -/
abbrev Tbl (α : Type) := List (Nat × α)

/-- Field [lo + w - 1 : lo] of a value (R12: bit 0 is the least significant). -/
def bits (v lo w : Nat) : Nat := v / 2 ^ lo % 2 ^ w

/-- One bit of a value. -/
def bit (v i : Nat) : Bool := v / 2 ^ i % 2 == 1

end Sys2Proof
end

