-- ==== Sys2Proof/Config.lean ====
section
/-! DEFINITION. What assembly fixes (the ordering code, R1) and the free values: constants without a body, one for
each value the spec leaves open after a step that goes on. No proof can see what a free value is. -/
namespace Sys2Proof

/-- The four ordering codes of R1. DESIGN CHOICE (log 6). -/
inductive Variant
  | s8x4 | s8x2 | s4x4 | s4x2
  deriving DecidableEq, Repr

/-- DRAM stacks present (R1, R3). -/
def Variant.stacks : Variant → Nat
  | .s8x4 | .s8x2 => 8
  | .s4x4 | .s4x2 => 4

/-- I/O dies present (R1, R3). -/
def Variant.dies : Variant → Nat
  | .s8x4 | .s4x4 => 4
  | .s8x2 | .s4x2 => 2

/-- Fabric links present: 24 on each I/O die (R3). -/
def Variant.links (v : Variant) : Nat := 24 * v.dies

/-- Flash channels present: 8 on each I/O die (R3). -/
def Variant.channels (v : Variant) : Nat := 8 * v.dies

/-- Design power in watts (the table of R2). -/
def Variant.designPower : Variant → Nat
  | .s8x4 => 1150
  | .s8x2 => 940
  | .s4x4 => 1000
  | .s4x2 => 800

/-- Store capacity in GiB: the flash user capacity (R48). -/
def Variant.storeGiB (v : Variant) : Nat := 32768 * v.dies

/-! ### Free values: no body, so nothing can be proved of which value it is -/

/-- The n-th value the spec leaves open: an undefined byte, a layout-dependent step or stream number of an unpublished
step table (R587), a nonce, a key-dependent field. `Dev.fresh` counts them. DESIGN CHOICE (log 9). -/
opaque Config.freeValue : Nat → Nat

/-- Slots of one flash erase block: the spec names erase blocks and gives no size. UNVERIFIED (log 10). -/
opaque Config.blockSlots : Nat

/-- Bytes of the pinned window of a descriptor: the spec describes the windows and gives no size (R111, R196). UNVERIFIED (log 11). -/
opaque Config.pinnedBytes : Nat

/-- Measurement 1, the digest of the boot ROM, as a number: the ROM is not published (R509). UNVERIFIED (log 12). -/
opaque Config.romDigest : Nat

/-- The length of the alias certificate in bytes: built by the RTP, its DER is not published (R505). UNVERIFIED (log 13). -/
opaque Config.aliasLength : Nat

end Sys2Proof
end

