-- ==== Sys2Proof/Syntax.lean ====
section
/-! DEFINITION. The commands: one constructor of Instr for each row of spec/opcode_table.json, with what the sender or
the environment supplies as its operands. -/
namespace Sys2Proof

/-- The header fields of an arriving fabric message that its row uses (R458): the source node, the tag, the offset of
the fabric address, the collar a direct-form request carries, and the link it arrived on. -/
structure Hdr where
  src    : Nat
  tag    : Nat
  off    : Nat
  link   : Nat := 0
  collar : Nat := 0
  deriving DecidableEq, Repr

/-- An error the module's codes find while a step runs (R477): the failing storage by its STRUCT code (R487), whether
it is uncorrectable, and whether the second copy fails too (R481). -/
structure Ecc where
  struct : Nat
  uncorr : Bool
  both   : Bool := false
  deriving DecidableEq, Repr

/-- What another party answers to a request or snoop that a whole-descriptor step sends, one per request in the order
sent. A request with no answer left meets the fabric request timeout (R485). -/
inductive Reply
  /-- DATA, or a fabric read's payload. -/
  | data (b : Bytes)
  /-- CMP with status OK; to a snoop, ACK: nothing dirty to return. -/
  | done
  /-- A response with this non-zero STATUS (R458). -/
  | status (code : Nat)
  /-- A snooped owner's dirty line (SNP_DATA, or a host's MemWr before its BIRsp). -/
  | dirty (b : Bytes)
  /-- MISS: the snooped agent held no copy. -/
  | miss
  deriving DecidableEq, Repr

/-- Where a register access is addressed (R573). -/
inductive Space
  /-- PF0 BAR0. -/
  | pf0
  /-- BAR0 of virtual function f, or BAR2 of PF0 for f = 0 (R152). -/
  | fn (f : Nat)
  /-- The MSI-X Enable (bit 0) and Function Mask (bit 1) controls of function f's configuration space. -/
  | msixCtl (f : Nat)
  /-- PF0 BAR4: the CXL-defined registers (R434). -/
  | bar4
  /-- VF Enable (bit 0) and NumVFs (bits 16 to 31) of PF0's SR-IOV capability. -/
  | sriov
  /-- BI Enable (bit 0) of the BI Decoder Capability, one of the CXL component registers of BAR4 (R428). -/
  | biCtl
  deriving DecidableEq, Repr

/-- A received flit (R441, R446): its type (0 PAYLOAD, 1 IDLE, 2 LINKCTL), SEQ, ACK and credit return; whether it lies in
an uncorrectable codeword, the uncorrectable and corrected codewords it is the first flit of, whether its INTEG checks,
and the slots its messages take in each VC's buffer. -/
structure RxFlit where
  ftype  : Nat
  seq    : Nat
  ack    : Nat
  cvc    : Nat := 0
  crd    : Nat := 0
  bad    : Bool := false
  uncorr : Nat := 0
  corr   : Nat := 0
  integ  : Bool := true
  slots  : List (Nat × Nat) := []
  deriving DecidableEq, Repr

/-- One fabric message: the header of R458, the parameter slot of R460 and the payload. -/
structure Msg where
  mtype   : Nat
  grp     : Bool := false
  dst     : Nat
  src     : Nat
  tag     : Nat := 0
  status  : Nat := 0
  attr    : Nat := 0
  off     : Nat := 0
  collar  : Nat := 0
  attr2   : Nat := 0
  param   : Nat := 0
  payload : Bytes := []
  deriving DecidableEq, Repr

/-- The MetaValue of a CXL.mem read (R85). -/
inductive Meta
  | i | s | a
  deriving DecidableEq, Repr


/-- What checking one image slot meets that depends on keys or hardware (R507): whether ESIG and LSIG verify under the ROM's
keys, and whether the boot flash delivers the image. -/
structure ImgSig where
  esig  : Bool := true
  lsig  : Bool := true
  flash : Bool := true
  deriving DecidableEq, Repr

/-- What manufacture leaves in a module (R502, R505): the fuses, the images of slots A and B, the slot that is ACTIVE, the
slots that hold a valid image, and the certificates at positions 0 to 2. -/
structure Mfg where
  fused   : Nat := 0
  prod    : Bool := true
  erevoke : Nat := 0
  lrevoke : Nat := 0
  slotA   : Bytes := []
  slotB   : Bytes := []
  active  : Nat := 0
  ok      : List Nat := []
  certs   : List Bytes := []
  deriving DecidableEq, Repr

/-! ### Map records (spec/02, R68, R69) -/

/-- A kennel record of the map. -/
structure KnlRec where
  base : Nat
  size : Nat
  collar : Nat
  hostExt : Bool := false
  dcRegion : Nat := 0
  deriving DecidableEq, Repr

/-- A function record: the accelerator nodes that serve the function, the PBR IDs of the hosts bound to it, and the
multicast group whose members those nodes are (R69, R89, R422). -/
structure FnRec where
  fn : Nat
  nodes : List Nat := []
  hosts : List Nat := []
  mcGroup : Option Nat := none
  deriving DecidableEq, Repr

/-- A module of the region as the map lists it: node, heel group, pack and position in the pack. -/
structure ModRec where
  node : Nat
  group : Option Nat := none
  pack : Option Nat := none
  k : Nat := 4
  pos : Nat := 0
  /-- The position is lost; a replacement fills it and is not yet rebuilt (R383, R385). -/
  lost : Bool := false
  rebuilding : Bool := false
  deriving DecidableEq, Repr

/-- A routing or multicast entry the map sets (R462). -/
structure RouteRec where
  multicast : Bool
  index : Nat
  lo : Nat
  hi : Nat
  isLocal : Bool
  valid : Bool
  deriving DecidableEq, Repr

/-- The records of one map epoch for this module. -/
structure MapRecs where
  epoch : Nat := 0
  node : Nat := 0
  region : Nat := 0
  keepers : List Nat := []
  modules : List ModRec := []
  kennels : List KnlRec := []
  fns : List FnRec := []
  routes : List RouteRec := []
  deriving DecidableEq, Repr


/-! ### The map log (spec/14, R468 to R473) -/

/-- A proposed change, and what a log entry holds. MAP entries: a kennel reported FREE, a kennel to omit, a node removed, a
member lost, a pack that failed, or records given whole by the integrator; and a committed heel of a group: E and F. -/
inductive Change
  | free (node base size : Nat)
  | omit (node base size : Nat)
  | remove (node : Nat)
  | lost (node : Nat)
  | packFailed (nodes : List Nat)
  | records (recs : List MapRecs)
  | heel (group e f : Nat)
  deriving DecidableEq, Repr

/-- A log entry: the term it was appended in, and its change. -/
structure LogEnt where
  term : Nat
  change : Change
  deriving DecidableEq, Repr

/-- The KEEP messages (R470). A COMMIT that tells a heel group of its heel record carries the epoch ended. -/
inductive KeepMsg
  | propose (ch : Change)
  | append (term index pterm : Nat) (e : LogEnt)
  | appendAck (index term : Nat) (ok : Bool)
  | voteReq (term lterm lindex : Nat)
  | vote (term : Nat) (granted : Bool)
  | heartbeat (term committed : Nat)
  | commit (index epoch : Nat) (nodes : List Nat) (heel : Option Nat)
  | fetch (node epoch : Nat)
  | records (recs : MapRecs)
  | applied (epoch : Nat)
  deriving DecidableEq, Repr

/-- The rows of spec/opcode_table.json, in its order. -/
inductive Instr
  /-- TAIL_DOORBELL (R156). A TAIL doorbell write to a function's doorbell page is checked against FETCH and TAIL, then accepted or dropped, and the new TAIL and T_db are recorded. -/
  | tailDoorbell (fn : Nat) (lring : Nat) (tail : Nat) (tee : Bool)
  /-- RESUME_DOORBELL (R185). A TAIL doorbell with RESUME = 1 sets FETCH = TAIL = T and clears REPLAY_WAIT, or is dropped with a DOORBELL record. -/
  | resumeDoorbell (fn : Nat) (lring : Nat) (tail : Nat) (tee : Bool)
  /-- CHEAD_DOORBELL (R156). A CHEAD doorbell releases consumed completion slots if it lies within the window, and otherwise is dropped and counted. -/
  | cheadDoorbell (fn : Nat) (lring : Nat) (chead : Nat) (tee : Bool)
  /-- FHEAD_DOORBELL (R180). An FHEAD doorbell advances the fault ring head, or is dropped and counted in FH_BAD or FH_DROP. -/
  | fheadDoorbell (fn : Nat) (fhead : Nat) (tee : Bool)
  /-- DOORBELL (R155). A fabric DOORBELL message from the node named by RNG_DBASE is applied as a TAIL, CHEAD or FHEAD doorbell; from any other source it is answered DENIED. -/
  | doorbell (h : Hdr) (fn : Nat) (lring : Nat) (kind : Nat) (value : Nat)
  /-- DESCRIPTOR_FETCH (R159). The ring manager fetches the descriptor at FETCH once the ring is ACTIVE with no hold, FETCH differs from TAIL, a completion slot is free and the leashes hold tokens. -/
  | descriptorFetch (ring : Nat) (words : List Nat) (ecc : Option Ecc)
  /-- FETCH_FAILURE (R161). A descriptor fetch that is refused, returns poison or times out halts the ring and writes a FETCH record. -/
  | fetchFailure (ring : Nat) (cause : Nat)
  /-- DISPATCH (R35). A descriptor waiting at the ring manager is placed in the chosen bay's dispatch queue once the queue has room. -/
  | dispatch (ring : Nat) (idx : Nat)
  /-- THREAD_START (R189). A FREE step thread takes the oldest descriptor in its bay's dispatch queue and starts at the opcode's entry step. -/
  | threadStart (bay : Nat) (thr : Nat)
  /-- CTL_NOP (R197). Step CTL NOP performs no operation and selects the next step by its condition. -/
  | ctlNop (bay : Nat) (thr : Nat) (ecc : Option Ecc)
  /-- LCSET (R197). Step CTL LCSET loads LC[LCSEL] from SRCA. -/
  | lcset (bay : Nat) (thr : Nat) (ecc : Option Ecc)
  /-- SMOV (R197). Step CTL SMOV moves a scalar into S[DST]. -/
  | smov (bay : Nat) (thr : Nat) (ecc : Option Ecc)
  /-- SADD (R197). Step CTL SADD adds two scalars modulo 2^64. -/
  | sadd (bay : Nat) (thr : Nat) (ecc : Option Ecc)
  /-- SSUB (R197). Step CTL SSUB subtracts two scalars modulo 2^64. -/
  | ssub (bay : Nat) (thr : Nat) (ecc : Option Ecc)
  /-- SAND (R197). Step CTL SAND forms the bitwise AND of two scalars. -/
  | sand (bay : Nat) (thr : Nat) (ecc : Option Ecc)
  /-- SOR (R197). Step CTL SOR forms the bitwise OR of two scalars. -/
  | sor (bay : Nat) (thr : Nat) (ecc : Option Ecc)
  /-- SSHL (R197). Step CTL SSHL shifts a scalar left by SRCB[5:0]. -/
  | sshl (bay : Nat) (thr : Nat) (ecc : Option Ecc)
  /-- SSHR (R197). Step CTL SSHR shifts a scalar right logically by SRCB[5:0]. -/
  | sshr (bay : Nat) (thr : Nat) (ecc : Option Ecc)
  /-- SMUL (R197). Step CTL SMUL multiplies two scalars modulo 2^64. -/
  | smul (bay : Nat) (thr : Nat) (ecc : Option Ecc)
  /-- LDSEQ (R197). Step LOAD LDSEQ issues a load of the next elements of a sequential stream. -/
  | ldseq (bay : Nat) (thr : Nat) (ecc : Option Ecc)
  /-- LDROW (R197). Step LOAD LDROW issues a load of row SRCB of an indexed stream, or reports INVIDX. -/
  | ldrow (bay : Nat) (thr : Nat) (ecc : Option Ecc)
  /-- LDIDX (R197). Step LOAD LDIDX delivers the next index of an index stream into S[DST], or reports BAGEND. -/
  | ldidx (bay : Nat) (thr : Nat) (ecc : Option Ecc)
  /-- LDSHADOW (R201). Step LOAD LDSHADOW issues a load of a row from the shadow copy. -/
  | ldshadow (bay : Nat) (thr : Nat) (env : List Reply) (ecc : Option Ecc)
  /-- STSEQ (R197). Step STORE STSEQ issues a store to the next elements of a sequential stream. -/
  | stseq (bay : Nat) (thr : Nat) (ecc : Option Ecc)
  /-- STROW (R197). Step STORE STROW issues a store of a row of an indexed stream. -/
  | strow (bay : Nat) (thr : Nat) (ecc : Option Ecc)
  /-- STMASK (R197). Step STORE STMASK issues a store under a byte mask taken from SRCB. -/
  | stmask (bay : Nat) (thr : Nat) (ecc : Option Ecc)
  /-- ATOM_ATOMIC (R94). Step ATOM ATOMIC issues an atomic with the AOP, element type, FETCH and line flags taken from IMM. -/
  | atomAtomic (bay : Nat) (thr : Nat) (ecc : Option Ecc)
  /-- LANE_FMA (R198). Step LANE FMA performs a fused multiply-add on every active lane. -/
  | laneFma (bay : Nat) (thr : Nat) (ecc : Option Ecc)
  /-- LANE_ADD (R198). Step LANE ADD adds on every active lane. -/
  | laneAdd (bay : Nat) (thr : Nat) (ecc : Option Ecc)
  /-- LANE_MUL (R198). Step LANE MUL multiplies on every active lane. -/
  | laneMul (bay : Nat) (thr : Nat) (ecc : Option Ecc)
  /-- LANE_MAX (R198). Step LANE MAX takes the maximum on every active lane. -/
  | laneMax (bay : Nat) (thr : Nat) (ecc : Option Ecc)
  /-- LANE_MIN (R198). Step LANE MIN takes the minimum on every active lane. -/
  | laneMin (bay : Nat) (thr : Nat) (ecc : Option Ecc)
  /-- LANE_SCALE (R198). Step LANE SCALE multiplies every active lane by a scalar. -/
  | laneScale (bay : Nat) (thr : Nat) (ecc : Option Ecc)
  /-- LANE_DOT (R198). Step LANE DOT forms a dot product across the lanes. -/
  | laneDot (bay : Nat) (thr : Nat) (ecc : Option Ecc)
  /-- MAC8 (R198). Step LANE MAC8 accumulates INT8 products into INT32 with saturation. -/
  | mac8 (bay : Nat) (thr : Nat) (ecc : Option Ecc)
  /-- MAC4 (R198). Step LANE MAC4 accumulates INT4 products into INT32 with saturation. -/
  | mac4 (bay : Nat) (thr : Nat) (ecc : Option Ecc)
  /-- QUANT (R241). Step CODEC QUANT quantises elements to codes. -/
  | quant (bay : Nat) (thr : Nat) (ecc : Option Ecc)
  /-- DEQUANT (R243). Step CODEC DEQUANT dequantises codes to floating-point values. -/
  | dequant (bay : Nat) (thr : Nat) (ecc : Option Ecc)
  /-- PROBE (R265). Step COAL PROBE records a row in the duplicate-coalescing table and reports ZERO if the row was already present. -/
  | probe (bay : Nat) (thr : Nat) (ecc : Option Ecc)
  /-- COAL_DRAIN (R265). Step COAL DRAIN drains the rows of the coalescing table. -/
  | coalDrain (bay : Nat) (thr : Nat) (ecc : Option Ecc)
  /-- ACC (R254). Step COMB ACC adds a contribution into a combining segment, flushing a conflicting or replaced segment. -/
  | acc (bay : Nat) (thr : Nat) (env : List Reply) (ecc : Option Ecc)
  /-- COMB_FLUSH (R255). Step COMB FLUSH sends combining segments to their homes as contributions. -/
  | combFlush (bay : Nat) (thr : Nat) (env : List Reply) (ecc : Option Ecc)
  /-- SKETCH_COUNT (R278). Step SKETCH COUNT updates the bay's heavy-hitter sketch with a key. -/
  | sketchCount (bay : Nat) (thr : Nat) (ecc : Option Ecc)
  /-- SKETCH_READ (R280). Step SKETCH READ reads a snapshot of the bay's sketch. -/
  | sketchRead (bay : Nat) (thr : Nat) (ecc : Option Ecc)
  /-- PQ_PUSH (R300). Step PQ PUSH inserts a candidate into a search context's priority queue, evicting or dropping at a full queue. -/
  | pqPush (bay : Nat) (thr : Nat) (ecc : Option Ecc)
  /-- PQ_POP (R300). Step PQ POP selects and marks the first unexpanded candidate, or reports PQEMPTY. -/
  | pqPop (bay : Nat) (thr : Nat) (ecc : Option Ecc)
  /-- PQ_PEEK (R300). Step PQ PEEK returns the candidate at a given rank. -/
  | pqPeek (bay : Nat) (thr : Nat) (ecc : Option Ecc)
  /-- PQ_CLEAR (R300). Step PQ CLEAR empties a candidate queue. -/
  | pqClear (bay : Nat) (thr : Nat) (ecc : Option Ecc)
  /-- COPY (R197). Step COPY copies IMM × 64 B between two different spaces. -/
  | copy (bay : Nat) (thr : Nat) (ecc : Option Ecc)
  /-- STRM_SEQ (R197). Step STRM SEQ declares a sequential stream. -/
  | strmSeq (bay : Nat) (thr : Nat) (ecc : Option Ecc)
  /-- STRM_IDX (R197). Step STRM IDX declares an indexed table stream. -/
  | strmIdx (bay : Nat) (thr : Nat) (ecc : Option Ecc)
  /-- STRM_BAG (R197). Step STRM BAG sets the index count of the next bag of a stream. -/
  | strmBag (bay : Nat) (thr : Nat) (ecc : Option Ecc)
  /-- STRM_CLOSE (R197). Step STRM CLOSE closes a stream context. -/
  | strmClose (bay : Nat) (thr : Nat) (ecc : Option Ecc)
  /-- WAIT (R204). Step WAIT reaches its end when every earlier access of its class has finished. -/
  | wait (bay : Nat) (thr : Nat) (ecc : Option Ecc)
  /-- DONE_COMPLETE (R208). Step DONE COMPLETE waits for all accesses and hands the completion to the ring manager, acting as DONE FAULT when the latch holds a record. -/
  | doneComplete (bay : Nat) (thr : Nat) (ecc : Option Ecc)
  /-- DONE_FAULT (R208). Step DONE FAULT writes the fault latch's record and completes with the latch's status. -/
  | doneFault (bay : Nat) (thr : Nat) (ecc : Option Ecc)
  /-- DONE_PARK (R286). Step DONE PARK hands a ROW_MIGRATE descriptor to the ring manager in PENDING_COMMIT, keeping its completion slot. -/
  | donePark (bay : Nat) (thr : Nat) (ecc : Option Ecc)
  /-- ACCESS_RESPONSE (R204). The data or response of an issued engine access arrives, sets the access flags and may unstall the thread. -/
  | accessResponse (bay : Nat) (thr : Nat) (acc : Nat) (ecc : Option Ecc)
  /-- THREAD_FREE (R192). A DRAINING thread whose issued accesses all have responses becomes FREE and hands over or discards its completion. -/
  | threadFree (bay : Nat) (thr : Nat)
  /-- STEP_WATCHDOG (R211). The step watchdog expires, and the thread drains and completes with WATCHDOG and a STEP_WATCHDOG record. -/
  | stepWatchdog (bay : Nat) (thr : Nat)
  /-- WALK_START (R130). A free walker starts a waiting translation walk, demand misses first and then round robin. -/
  | walkStart (group : Nat)
  /-- WALK_COMPLETE (R123). A translation walk ends by filling the caches and waiting slots, or by reporting a translation fault. -/
  | walkComplete (collar : Nat) (page : Nat) (env : List Reply)
  /-- MOVE_TENSOR (R229). MOVE in TENSOR mode copies a tensor's blocks, metadata and scale records, then writes the destination header. -/
  | moveTensor (bay : Nat) (thr : Nat) (env : List Reply)
  /-- MOVE_RAW (R229). MOVE in RAW mode copies LENGTH bytes without interpretation. -/
  | moveRaw (bay : Nat) (thr : Nat) (env : List Reply)
  /-- MOVE_GATHER (R229). MOVE in GATHER mode copies the segments that a conditional index list selects. -/
  | moveGather (bay : Nat) (thr : Nat) (env : List Reply)
  /-- COMPRESS (R235). MOVE_SPARSE COMPRESS turns a DENSE source into a BLOCK_SPARSE destination. -/
  | compress (bay : Nat) (thr : Nat) (env : List Reply)
  /-- EXPAND (R235). MOVE_SPARSE EXPAND turns a BLOCK_SPARSE source into a DENSE destination. -/
  | expand (bay : Nat) (thr : Nat) (env : List Reply)
  /-- CONVERT (R238). CONVERT quantises, dequantises, widens or narrows a tensor's elements. -/
  | convert (bay : Nat) (thr : Nat) (env : List Reply)
  /-- MCAST_STORE (R247). MCAST_STORE writes a source's present blocks to every destination of a list or multicast group. -/
  | mcastStore (bay : Nat) (thr : Nat) (env : List Reply)
  /-- REDUCE_REMOTE (R250). REDUCE_REMOTE sends contributions to the destination's home atomic units, or combines them in the bay. -/
  | reduceRemote (bay : Nat) (thr : Nat) (env : List Reply)
  /-- GATHER_POOL (R266). GATHER_POOL gathers the rows of each bag, coalesces repeats and pools them into output rows. -/
  | gatherPool (bay : Nat) (thr : Nat) (env : List Reply)
  /-- SCATTER_ADD_ADD (R274). SCATTER_ADD in ADD mode combines scaled gradients in shared segments and applies them by whole-line FADD. -/
  | scatterAddAdd (bay : Nat) (thr : Nat) (env : List Reply)
  /-- REQUANT (R275). SCATTER_ADD in REQUANT mode adds combined updates to quantised rows and requantises them. -/
  | requant (bay : Nat) (thr : Nat) (env : List Reply)
  /-- ADAGRAD (R276). SCATTER_ADD in ADAGRAD mode updates the state and then applies the row-wise Adagrad step. -/
  | adagrad (bay : Nat) (thr : Nat) (env : List Reply)
  /-- SHARD_PROBE (R280). SHARD_PROBE merges all bays' sketches for a table and writes the top-K report. -/
  | shardProbe (bay : Nat) (thr : Nat) (env : List Reply)
  /-- MIGRATE (R286). ROW_MIGRATE in MIGRATE mode reserves entries, arms watches and copies each row to its destination before parking. -/
  | migrate (bay : Nat) (thr : Nat) (env : List Reply)
  /-- RELEASE (R286). ROW_MIGRATE in RELEASE mode copies redirected rows back to their source rows before parking. -/
  | release (bay : Nat) (thr : Nat) (env : List Reply)
  /-- DROP (R286). ROW_MIGRATE in DROP mode marks redirects for removal at commit without copying. -/
  | drop (bay : Nat) (thr : Nat) (env : List Reply)
  /-- SEARCH (R305). SEARCH runs each query's side scan and graph walk and writes the top K eligible results. -/
  | search (bay : Nat) (thr : Nat) (env : List Reply)
  /-- INSERT (R313). INSERT claims a node, fills its record, takes a VSN and writes the side-list slot. -/
  | insert (bay : Nat) (thr : Nat) (env : List Reply)
  /-- DELETE (R313). DELETE tombstones a node, takes a VSN and writes the side-list slot. -/
  | delete (bay : Nat) (thr : Nat) (env : List Reply)
  /-- MERGE (R319). MERGE takes the LOCK, links side-list nodes, repairs edges, frees deleted nodes and advances HEAD. -/
  | merge (bay : Nat) (thr : Nat) (env : List Reply)
  /-- SIDE_SLOT_REREAD (R315). An unwritten side slot is read again every 1 µs, and is skipped and counted after SIDE_WAIT. -/
  | sideSlotReread (bay : Nat) (thr : Nat) (env : List Reply)
  /-- PROMOTE (R346). PROMOTE pins each unit of a tensor's extent into pinned DRAM frames. -/
  | promote (bay : Nat) (thr : Nat) (env : List Reply)
  /-- DEMOTE (R347). DEMOTE releases a tensor's pins and writes dirty units to flash. -/
  | demote (bay : Nat) (thr : Nat) (env : List Reply)
  /-- SHADOW (R350). SHADOW builds a low-precision shadow copy under a write hold and makes it current. -/
  | shadow (bay : Nat) (thr : Nat) (env : List Reply)
  /-- SHADOW_DROP (R350). SHADOW with DROP = 1 removes the current shadow and builds none. -/
  | shadowDrop (bay : Nat) (thr : Nat) (env : List Reply)
  /-- HEEL (R363). A HEEL descriptor is passed to the leader as a heel request, or completes with ALREADY or DENIED. -/
  | heel (ring : Nat) (idx : Nat)
  /-- FENCE (R108). FENCE stops fetching of its scope and optionally flushes the collar's combining segments. -/
  | fence (ring : Nat) (idx : Nat) (env : List Reply)
  /-- FENCE_COMPLETE (R108). A FENCE completes once every earlier descriptor of its scope has completed and its flush has executed, and fetching resumes. -/
  | fenceComplete (ring : Nat) (idx : Nat) (env : List Reply)
  /-- MARK (R166). MARK completes with OK as soon as it is fetched. -/
  | mark (ring : Nat) (idx : Nat)
  /-- XLATE_INVAL_RANGE (R142). XLATE_INVAL with SCOPE RANGE removes cached pages of TARGET in a TVA range and advances XLT_GEN. -/
  | xlateInvalRange (ring : Nat) (idx : Nat) (env : List Reply)
  /-- XLATE_INVAL_FUNCTION (R142). XLATE_INVAL with SCOPE FUNCTION removes every cached page of TARGET and advances XLT_GEN. -/
  | xlateInvalFunction (ring : Nat) (idx : Nat) (env : List Reply)
  /-- XLATE_INVAL_DRAIN_END (R142). The accesses of the old generation have all been answered, and the XLATE_INVAL completes. -/
  | xlateInvalDrainEnd
  /-- XLATE_INVAL_WINDOW (R144). XLATE_INVAL with SCOPE WINDOW sets an OPEN window to CLOSING. -/
  | xlateInvalWindow (ring : Nat) (idx : Nat)
  /-- WINDOW_CLOSE_DRAIN_END (R144). XLT_WINFLT.COUNT reaches 0, the window's lines are recalled and invalidated, and the window becomes FREE. -/
  | windowCloseDrainEnd (window : Nat) (env : List Reply)
  /-- COMPLETION_WRITE (R33). Once a descriptor's results are visible, the ring manager writes its completion record. -/
  | completionWrite (ring : Nat) (idx : Nat)
  /-- IRQ_TIMER (R173). The moderation timer reaches MAXTIME and the ring's interrupt is raised. -/
  | irqTimer (ring : Nat)
  /-- MSIX_UNMASK (R406). Clearing an MSI-X entry's Mask bit sends its pending interrupt. -/
  | msixUnmask (fn : Nat) (vec : Nat)
  /-- COMPLETION_WRITE_FAILURE (R172). A failed completion write halts the ring and writes a COMP_WRITE record. -/
  | completionWriteFailure (ring : Nat) (idx : Nat) (cause : Nat)
  /-- FAULT_RING_WRITE_FAILURE (R182). A failed fault-ring write clears FN_FRCTL.EN and reports COMP_WRITE to PF0. -/
  | faultRingWriteFailure (fn : Nat) (cause : Nat)
  /-- RD_SHARED (R79). A RD_SHARED request is checked and resolved at the line's home slice and granted a shared copy. -/
  | rdShared (h : Hdr) (ecc : Option Ecc)
  /-- RD_OWN (R79). A RD_OWN request invalidates or forwards the other copies and grants ownership. -/
  | rdOwn (h : Hdr) (ecc : Option Ecc)
  /-- UPGRADE (R83). An UPGRADE request grants ownership without data, or is executed as RD_OWN. -/
  | upgrade (h : Hdr) (ecc : Option Ecc)
  /-- RD_ONCE (R99). A RD_ONCE request is served at the point of coherence and creates no sharer. -/
  | rdOnce (h : Hdr) (lines : Nat) (ecc : Option Ecc)
  /-- WR_LINE (R101). A WR_LINE request invalidates every copy and then writes the line at home. -/
  | wrLine (h : Hdr) (lines : Nat) (data : Bytes) (ecc : Option Ecc)
  /-- WR_MASK (R101). A WR_MASK request writes the masked bytes of a line at home. -/
  | wrMask (h : Hdr) (mask : Nat) (data : Bytes) (ecc : Option Ecc)
  /-- WB (R583). A WB from the owner writes the line back and frees the entry, and a WB from any other agent is refused with DENIED. -/
  | wb (h : Hdr) (data : Bytes) (ecc : Option Ecc)
  /-- ATOMIC (R96). A fabric ATOMIC executes at the home atomic unit in arrival order after invalidations. -/
  | atomic (h : Hdr) (aop : Nat) (ety : Nat) (fetch : Bool) (whole : Bool) (slot : Bytes) (ecc : Option Ecc)
  /-- ZERO_MARK (R252). A ZERO_MARK is applied as a whole-line atomic with operand 0 to each line of the block. -/
  | zeroMark (h : Hdr) (aop : Nat) (ety : Nat)
  /-- MC_BLOCK (R247). An MC_BLOCK is written at this member through DEST and answered with CMP. -/
  | mcBlock (h : Hdr) (data : Bytes) (ecc : Option Ecc)
  /-- MC_ZERO (R247). An MC_ZERO writes 256 zero bytes at this member and is answered with CMP. -/
  | mcZero (h : Hdr)
  /-- CMP (R459). A CMP response ends an outstanding request of this module. -/
  | cmp (h : Hdr) (status : Nat)
  /-- DATA (R459). A DATA response delivers the data of an outstanding read of this module. -/
  | data (h : Hdr) (status : Nat) (data : Bytes)
  /-- ACK (R90). An ACK answers a snoop and counts toward the home's wait for invalidation answers. -/
  | ack (h : Hdr)
  /-- MISS (R81). A MISS answers a snoop as an invalidation already done. -/
  | miss (h : Hdr)
  /-- FWD_DONE (R79). A FWD_DONE answer completes a forwarded request at the home. -/
  | fwdDone (h : Hdr)
  /-- FWD_MISS (R81). On a FWD_MISS the home serves the requester from the store. -/
  | fwdMiss (h : Hdr)
  /-- SNP_DATA (R79). SNP_DATA returns an owner's dirty data to the home in answer to a recall or a shared forward. -/
  | snpData (h : Hdr) (data : Bytes)
  /-- TRACKER_ADMIT (R78). A request waiting in the conflict queue is admitted when the line's tracker is released. -/
  | trackerAdmit (line : Nat)
  /-- SNOOP_TIMEOUT (R84). A snoop unanswered within the fabric request timeout counts as answered, poisons or drops, and is recorded. -/
  | snoopTimeout (node : Nat) (line : Nat)
  /-- FABRIC_TIMEOUT (R485). A request of this module unanswered within RAS_TMO.FABRIC ends with TIMEOUT. -/
  | fabricTimeout (tag : Nat)
  /-- BIRSP_TIMEOUT (R88). A missing BIRsp is treated as a silent owner or sharer, and the SPID is declared failed. -/
  | birspTimeout (spid : Nat) (line : Nat)
  /-- MEMRD (R85). A CXL.mem MemRd is resolved as a shared, ownership or uncached read, according to its MetaValue. -/
  | memrd (pbr : Nat) (tag : Nat) (hpa : Nat) (mv : Meta) (ecc : Option Ecc)
  /-- MEMRDDATA (R85). A CXL.mem MemRdData is served as an uncached read. -/
  | memrddata (pbr : Nat) (tag : Nat) (hpa : Nat) (ecc : Option Ecc)
  /-- MEMINV (R85). A CXL.mem MemInv with MetaValue A is an ownership read without data. -/
  | meminv (pbr : Nat) (tag : Nat) (hpa : Nat) (ecc : Option Ecc)
  /-- MEMWR (R85). A CXL.mem MemWr is a write-back from the owner, or otherwise a write. -/
  | memwr (pbr : Nat) (tag : Nat) (hpa : Nat) (data : Bytes) (poison : Bool) (ecc : Option Ecc)
  /-- MEMWRPTL (R85). A CXL.mem MemWrPtl writes part of a line, or poisons it, or is dropped on a poisoned line. -/
  | memwrptl (pbr : Nat) (tag : Nat) (hpa : Nat) (mask : Nat) (data : Bytes) (poison : Bool) (ecc : Option Ecc)
  /-- MEMCLNEVCT (R85). A CXL.mem MemClnEvct completes with no directory change. -/
  | memclnevct (pbr : Nat) (tag : Nat) (hpa : Nat)
  /-- BIRSP (R86). A host's BIRsp answers a back-invalidation snoop. -/
  | birsp (pbr : Nat) (line : Nat) (kept : Bool)
  /-- BICONFLICT (R86). A BIConflict is resolved with BIConflictAck, and the host request joins the conflict queue. -/
  | biconflict (pbr : Nat) (line : Nat)
  /-- CXL_LINK_LOSS (R420). On DL_Down the SPIDs fail, the functions are reset as by an FLR, and DOWNS is counted. -/
  | cxlLinkLoss
  /-- PERST_ASSERT (R559). Assertion of PERST# holds the CXL port in fundamental reset, which is a link loss. -/
  | perstAssert
  /-- PERST_RELEASE (R559). Release of PERST# lets the CXL port train once step 5 of start-up has ended. -/
  | perstRelease
  /-- PCIE_FLR (R399). A PCIe function-level reset completes at once, masks the vectors and starts a quiesce with PENDING_ENABLE = 1. -/
  | pcieFlr (fn : Nat)
  /-- VF_ENABLE_CLEAR (R394). Clearing VF Enable quiesces every VF. -/
  | vfEnableClear
  /-- IDE_INTEGRITY_FAILURE (R437). An IDE integrity failure takes the link down or marks the selective stream Insecure. -/
  | ideIntegrityFailure (stream : Nat)
  /-- HDM_DECODER_COMMIT (R428). An HDM decoder commits only with BI Enable = 1 and type HDM-DB. -/
  | hdmDecoderCommit (dec : Nat) (base : Nat) (size : Nat) (iw : Nat) (ig : Nat) (skip : Nat) (pos : Nat) (hdmDb : Bool) (lock : Bool)
  /-- GET_EVENT_RECORDS (R435). The mailbox command Get Event Records returns event records. -/
  | getEventRecords (log : Nat)
  /-- CLEAR_EVENT_RECORDS (R435). The mailbox command Clear Event Records clears event records. -/
  | clearEventRecords (log : Nat) (all : Bool) (handles : List Nat)
  /-- GET_EVENT_INTERRUPT_POLICY (R435). The mailbox command returns the event interrupt policy. -/
  | getEventInterruptPolicy
  /-- SET_EVENT_INTERRUPT_POLICY (R435). The mailbox command sets the event interrupt policy. -/
  | setEventInterruptPolicy (settings : List Nat)
  /-- GET_FW_INFO (R435). The mailbox command Get FW Info reports the running image. -/
  | getFwInfo
  /-- GET_TIMESTAMP (R435). The mailbox command Get Timestamp returns the CXL timestamp. -/
  | getTimestamp
  /-- SET_TIMESTAMP (R435). The mailbox command Set Timestamp sets the event-record timestamp without changing TMR. -/
  | setTimestamp (ns : Nat)
  /-- GET_SUPPORTED_LOGS (R435). The mailbox command Get Supported Logs lists the Command Effects Log. -/
  | getSupportedLogs
  /-- GET_LOG (R435). The mailbox command Get Log returns the Command Effects Log. -/
  | getLog (cel : Bool)
  /-- IDENTIFY_MEMORY_DEVICE (R435). The mailbox command Identify Memory Device reports a static capacity of 0. -/
  | identifyMemoryDevice
  /-- GET_DYNAMIC_CAPACITY_CONFIGURATION (R435). The mailbox command returns the DC regions of CXP_DCREG. -/
  | getDynamicCapacityConfiguration
  /-- GET_DYNAMIC_CAPACITY_EXTENT_LIST (R430). The mailbox command returns the extent list with its tags. -/
  | getDynamicCapacityExtentList (first : Nat) (count : Nat)
  /-- ADD_DYNAMIC_CAPACITY_RESPONSE (R431). The host accepts the named extents, and each offered extent it does not name is declined and proposed for release. -/
  | addDynamicCapacityResponse (accepted : List (Nat × Nat))
  /-- RELEASE_DYNAMIC_CAPACITY (R431). A host release is forwarded to the keepers as a proposed map change and completes with Success. -/
  | releaseDynamicCapacity (released : List (Nat × Nat))
  /-- MAILBOX_UNSUPPORTED (R435). Any other mailbox opcode completes with Unsupported. -/
  | mailboxUnsupported (opcode : Nat)
  /-- TABLE_ACCESS (R436). A CXL Table Access request on the first DOE returns the CDAT. -/
  | tableAccess
  /-- GET_VERSION (R515). The SPDM request GET_VERSION returns the supported versions. -/
  | getVersion (via : Nat)
  /-- GET_CAPABILITIES (R515). The SPDM request GET_CAPABILITIES returns the capabilities. -/
  | getCapabilities (via : Nat)
  /-- NEGOTIATE_ALGORITHMS (R515). The SPDM request NEGOTIATE_ALGORITHMS selects the algorithms. -/
  | negotiateAlgorithms (via : Nat) (ok : Bool)
  /-- GET_DIGESTS (R515). The SPDM request GET_DIGESTS returns the certificate chain digest. -/
  | getDigests (via : Nat) (sess : Option Nat)
  /-- GET_CERTIFICATE (R505). The SPDM request GET_CERTIFICATE returns the slot 0 chain. -/
  | getCertificate (via : Nat) (sess : Option Nat) (slot : Nat) (off : Nat) (n : Nat)
  /-- CHALLENGE (R515). The SPDM request CHALLENGE is answered with a signature under the alias key. -/
  | challenge (via : Nat) (sess : Option Nat) (slot : Nat)
  /-- GET_MEASUREMENTS (R517). The SPDM request GET_MEASUREMENTS returns measurement blocks 1 to 7. -/
  | getMeasurements (via : Nat) (sess : Option Nat) (index : Nat) (sign : Bool)
  /-- KEY_EXCHANGE (R515). The SPDM request KEY_EXCHANGE starts a session, or is answered BUSY beyond 4 sessions. -/
  | keyExchange (via : Nat) (period : Nat)
  /-- FINISH (R515). The SPDM request FINISH completes session establishment. -/
  | finish (sess : Nat) (ok : Bool)
  /-- HEARTBEAT (R516). The SPDM request HEARTBEAT keeps a session alive. -/
  | heartbeat (sess : Nat)
  /-- SESSION_HEARTBEAT_MISS (R516). A session whose heartbeat is missed for three periods ends. -/
  | sessionHeartbeatMiss (sess : Nat)
  /-- KEY_UPDATE (R516). The SPDM request KEY_UPDATE renews a session direction's key. -/
  | keyUpdate (sess : Nat) (op : Nat)
  /-- END_SESSION (R516). The SPDM request END_SESSION ends a session. -/
  | endSession (sess : Nat)
  /-- IDE_KM (R437). An IDE_KM vendor-defined request programs the IDE stream keys. -/
  | ideKm (sess : Nat) (op : Nat) (stream : Nat) (keySet : Nat) (dir : Nat) (sub : Nat)
  /-- LOCK_INTERFACE_REQUEST (R519). A TDISP lock moves the TDI to CONFIG_LOCKED when the conditions of the rule hold. -/
  | lockInterfaceRequest (sess : Nat) (fn : Nat) (stream : Nat)
  /-- START_INTERFACE_REQUEST (R518). A TDISP start with the lock's nonce moves the TDI to RUN. -/
  | startInterfaceRequest (sess : Nat) (fn : Nat) (nonce : Nat)
  /-- STOP_INTERFACE_REQUEST (R518). A TDISP stop quiesces the function and returns the TDI to CONFIG_UNLOCKED. -/
  | stopInterfaceRequest (sess : Nat) (fn : Nat)
  /-- LINK_DETECT (R444). A peer's signal is detected on an enabled DOWN link, and training starts. -/
  | linkDetect (link : Nat)
  /-- TRAINING_STEP_TIMEOUT (R444). A training step that exceeds its limit takes the link DOWN and sets FAILSTEP. -/
  | trainingStepTimeout (link : Nat) (step : Nat)
  /-- IDENT (R444). A LINKCTL IDENT record gives the peer's node, link, kind and certificate hash. -/
  | ident (link : Nat) (node : Nat) (nodev : Bool) (peer : Nat) (acc : Bool) (hash : Nat) (plain : Bool)
  /-- KEYMSG (R524). A LINKCTL KEYMSG fragment advances the per-link key agreement, which ends in installed keys or FAIL. -/
  | keymsg (link : Nat) (part : Nat) (frag : Nat) (last : Bool) (data : Bytes) (chainOk : Bool) (hashOk : Bool) (sigOk : Bool)
  /-- FLIT_RECEIVE (R446). A received flit is decoded and authenticated, and is accepted in SEQ order or discarded with a RETRY_REQ. -/
  | flitReceive (link : Nat) (f : RxFlit)
  /-- LINK_RETIRE_END (R467). After its ACKs or 1 ms, the link discards unacknowledged flits, becomes RETIRED and is recorded. -/
  | linkRetireEnd (link : Nat)
  /-- RETRY_REQ (R446). A received RETRY_REQ makes the transmitter resend from the named SEQ under new frame counters. -/
  | retryReq (link : Nat) (seq : Nat)
  /-- RETRY_REQ_REPEAT (R446). RETRY_REQ is repeated every 2 µs, and after 8 without progress the link retrains. -/
  | retryReqRepeat (link : Nat)
  /-- CREDIT (R454). A LINKCTL CREDIT returns receive-buffer credits for a VC. -/
  | credit (link : Nat) (vc : Nat) (slots : Nat)
  /-- MESSAGE_TRANSMIT (R455). The transmitter sends a ready message on a VC once it holds credits for all of its slots. -/
  | messageTransmit (link : Nat) (idle : Nat)
  /-- REKEY (R451). The frame counter reaches a multiple of 2^REKEY_LOG, or the RTP asks, and the transmitter sends KEY_SWITCH. -/
  | rekey (link : Nat) (asked : Bool)
  /-- KEY_SWITCH (R451). A received KEY_SWITCH makes the receiver derive the next key and answer KEY_READY. -/
  | keySwitch (link : Nat) (at_ : Nat)
  /-- KEY_READY (R451). A received KEY_READY lets the transmitter switch keys at C. -/
  | keyReady (link : Nat) (at_ : Nat)
  /-- KEY_SWITCH_DEADLINE (R451). Without KEY_READY by C − 64, KEY_SWITCH is resent with C advanced by 1,024. -/
  | keySwitchDeadline (link : Nat)
  /-- LOSS_OF_SIGNAL (R443). Loss of signal takes an UP link DOWN, discarding unacknowledged flits. -/
  | lossOfSignal (link : Nat)
  /-- LINK_ENABLE (R443). Writing LNK_CTL.EN = 1 lets a DOWN link train when a peer is detected. -/
  | linkEnable (link : Nat)
  /-- LINK_DISABLE (R443). Writing LNK_CTL.EN = 0 takes the link DOWN. -/
  | linkDisable (link : Nat)
  /-- RETRAIN (R443). Writing LNK_CTL.RETRAIN = 1 makes an UP link train again under new keys. -/
  | retrain (link : Nat)
  /-- CABLE_PRESENCE_CHANGE (R558). A change of CBL_PRSNT# switches the connector's 3.3 V output and holds its links DOWN while high. -/
  | cablePresenceChange (conn : Nat) (present : Bool)
  /-- SWITCH_FORWARD (R461). The internal switch forwards a message not addressed to this node on a hashed eligible link or to a multicast tree. -/
  | switchForward (link : Nat) (m : Msg)
  /-- BEACON (R379). A received BEACON records the sender's epoch and last heel. -/
  | beacon (src : Nat) (epoch : Nat) (last : Nat)
  /-- BEACON_TIMER (R379). Every 1 ms a beacon is sent and beacon misses are counted. -/
  | beaconTimer
  /-- MEMBER_LOSS_TIME (R382). A member silent for LOSS_TIME is proposed for removal by the leader. -/
  | memberLossTime (node : Nat)
  /-- HEEL_START (R364). The leader, once the previous heel is committed and no rebuild range runs, sends DRAIN(E). -/
  | heelStart
  /-- HEEL_DRAIN (R364). On DRAIN(E) a member sets the HEEL hold on every ring. -/
  | heelDrain (src : Nat) (e : Nat)
  /-- MEMBER_DRAIN_END (R364). Once its fetched descriptors have completed and its segments are flushed, a member reports DRAINED. -/
  | memberDrainEnd (env : List Reply)
  /-- HEEL_DRAINED (R364). When every member has reported DRAINED, the leader sends HOLD(E). -/
  | heelDrained (src : Nat) (e : Nat)
  /-- HEEL_HOLD (R364). On HOLD(E) a member holds writes at its homes, recalls modified lines and commits migrations. -/
  | heelHold (src : Nat) (e : Nat) (env : List Reply)
  /-- MEMBER_HOLD_END (R364). Once the recalls and the migration commit are done, a member reports HELD. -/
  | memberHoldEnd (env : List Reply)
  /-- HEEL_HELD (R364). When every member has reported HELD, the leader sends CUT(E, F). -/
  | heelHeld (src : Nat) (e : Nat)
  /-- HEEL_HOLD_LIMIT (R365). Without CUT within H of HOLD, the leader sends ABORT(E) and restarts after 1 ms. -/
  | heelHoldLimit
  /-- HEEL_ABORT (R365). On ABORT(E) a member releases its held requests and clears its hold. -/
  | heelAbort (src : Nat) (e : Nat)
  /-- HEEL_CUT (R364). On CUT a member enters epoch F, releases held requests, resets engine state and starts shipping parity. -/
  | heelCut (src : Nat) (e : Nat) (f : Nat) (lost : List Nat)
  /-- MEMBER_SHIP_END (R377). Once every parity delta of E has its response, a member reports SHIPPED. -/
  | memberShipEnd
  /-- HEEL_SHIPPED (R364). When every member has reported SHIPPED, the leader proposes the heel record. -/
  | heelShipped (src : Nat) (e : Nat)
  /-- HEEL_COMMIT (R364). On COMMIT(E) a member discards the undo of E, checkpoints the map and completes its HEEL descriptors. -/
  | heelCommit (src : Nat) (e : Nat)
  /-- HEEL_ROLLBACK (R380). On ROLLBACK a member stops work, invalidates copies and restores its pages to the last committed heel. -/
  | heelRollback (src : Nat) (r : Nat) (cause : Nat) (lost : List (Nat × Option Bytes))
  /-- ROLLBACK_RESTORE_END (R380). Once its restore is done, a member reports ROLLED. -/
  | rollbackRestoreEnd
  /-- HEEL_ROLLED (R380). When every present member has reported ROLLED, the leader sends RESUME(F). -/
  | heelRolled (src : Nat) (seen : Nat)
  /-- HEEL_RESUME (R380). On RESUME(F) a member enters epoch F, completes its descriptors with REPLAY and writes REPLAY records. -/
  | heelResume (src : Nat) (f : Nat)
  /-- OFFER (R388). A HAND OFFER is taken if its generation is the highest seen, and is acknowledged. -/
  | offer (src : Nat) (kind : Nat) (object : Nat) (gen : Nat)
  /-- HAND_ACK (R388). A HAND ACK lets the sender discard its copy. -/
  | handAck (src : Nat) (kind : Nat) (object : Nat) (gen : Nat)
  /-- HANDOFF_TIMEOUT (R388). Without ACK within 10 ms, the sender reclaims the object and offers it again with the next generation. -/
  | handoffTimeout (kind : Nat) (object : Nat)
  /-- PARITY_DELTA (R378). A parity holder captures the parity page and applies the delta to P or Q. -/
  | parityDelta (h : Hdr) (epoch : Nat) (blk : Nat) (data : Bytes) (ecc : Option Ecc)
  /-- REBUILD_RD (R384). A REBUILD_RD is answered with the block as at the last committed heel. -/
  | rebuildRd (h : Hdr) (r : Nat)
  /-- REBUILD_DATA (R385). REBUILD_DATA supplies survivor data for a degraded read or a rebuild. -/
  | rebuildData (h : Hdr) (zero : Bool) (status : Nat) (data : Bytes)
  /-- REBUILD_RANGE_END (R386). A rebuild range ends and the next range starts, or the pack returns to WHOLE. -/
  | rebuildRangeEnd (pages : List (Nat × List (Nat × Bytes)))
  /-- PROPOSE (R472). The lead appends a proposed change, and a non-lead keeper forwards it. -/
  | propose (src : Nat) (ch : Change)
  /-- APPEND (R471). A keeper stores an appended entry in flash and answers APPEND_ACK. -/
  | append (src : Nat) (term : Nat) (index : Nat) (pterm : Nat) (e : LogEnt)
  /-- APPEND_ACK (R471). The lead counts stored copies and commits an entry at quorum. -/
  | appendAck (src : Nat) (index : Nat) (term : Nat) (ok : Bool)
  /-- VOTE_REQ (R469). A keeper grants at most one vote per term, to an up-to-date candidate. -/
  | voteReq (src : Nat) (term : Nat) (lterm : Nat) (lindex : Nat)
  /-- VOTE (R469). A candidate with Q votes becomes lead. -/
  | vote (src : Nat) (term : Nat) (granted : Bool)
  /-- KEEP_HEARTBEAT (R469). A received HEARTBEAT resets the election timer and gives the committed index. -/
  | keepHeartbeat (src : Nat) (term : Nat) (committed : Nat)
  /-- HEARTBEAT_TIMER (R469). Every 5 ms the lead keeper sends HEARTBEAT. -/
  | heartbeatTimer
  /-- ELECTION_TIMEOUT (R469). A keeper that hears no heartbeat for 50 ms to 100 ms becomes a candidate. -/
  | electionTimeout
  /-- KEEP_COMMIT (R473). A COMMIT tells a module of a committed map epoch, which it then fetches. -/
  | keepCommit (src : Nat) (index : Nat) (epoch : Nat) (nodes : List Nat) (heel : Option Nat)
  /-- KEEP_FETCH (R470). A keeper answers FETCH with RECORDS. -/
  | keepFetch (src : Nat) (node : Nat) (epoch : Nat)
  /-- RECORDS (R69). RECORDS delivers the latest committed epoch and the module's records for application. -/
  | records (src : Nat) (recs : MapRecs)
  /-- RECORDS_TIMEOUT (R582). Without RECORDS within 10 ms, FETCH goes to the next keeper. -/
  | recordsTimeout
  /-- MAP_FETCH_TIMER (R473). Every 1 s a module sends FETCH. -/
  | mapFetchTimer
  /-- APPLIED (R470). The lead records a module's acknowledgement of an applied map epoch. -/
  | applied (src : Nat) (epoch : Nat)
  /-- MAP_EPOCH_APPLY (R69). A committed map epoch is validated, then kennels are revoked and bound, routing is loaded and the epoch is stored. -/
  | mapEpochApply
  /-- REVOCATION_START (R59). A kennel is set REVOKING at every check point, its migrations are cancelled and a host release is sent. -/
  | revocationStart (knl : Nat)
  /-- REVOCATION_DRAIN_END (R58). When KNL_INFLT.COUNT reaches 0 and copies are removed, the kennel enters SCRUB. -/
  | revocationDrainEnd (knl : Nat)
  /-- SCRUB_END (R59). The scrub ends, windows are freed, quotas are returned and the kennel becomes FREE. -/
  | scrubEnd (knl : Nat)
  /-- KENNEL_DRAIN (R61). A drain not done within 500 ms raises KENNEL_DRAIN and a module reset. -/
  | kennelDrain (knl : Nat)
  /-- FLR (R396). Writing FN_CTL.FLR = 1 requests a function-level reset with PENDING_ENABLE = 1. -/
  | flr (fn : Nat)
  /-- FUNCTION_ENABLE (R395). Writing FN_CTL.EN = 1 enables a DISABLED function if the checks pass, or sets PENDING_ENABLE while quiescing. -/
  | functionEnable (fn : Nat)
  /-- FUNCTION_DISABLE (R394). Writing FN_CTL.EN = 0 quiesces an ENABLED function, or clears PENDING_ENABLE. -/
  | functionDisable (fn : Nat)
  /-- QUIESCE (R397). The transition controller starts a quiesce: QUIESCE holds are set and unstarted descriptors are flushed. -/
  | quiesce (fn : Nat)
  /-- QUIESCE_DRAIN_END (R397). Once the started work has drained, interrupts are cancelled, leashes are reset, state is zeroed and the function is ENABLED or DISABLED. -/
  | quiesceDrainEnd (fn : Nat)
  /-- RING_BIND (R148). A write of RNG_BIND binds a ring group to a function, or is refused with ERR. -/
  | ringBind (ring : Nat) (collar : Nat) (lgroup : Nat) (bound : Bool)
  /-- RING_ENABLE (R401). Writing RNG_CTL.EN = 1 on a DISABLED ring checks and enables it, zeroing the counts. -/
  | ringEnable (ring : Nat)
  /-- RING_RESET_REQUEST (R401). Writing RNG_CTL.EN = 0 on an ACTIVE or HALTED ring requests a ring reset. -/
  | ringResetRequest (ring : Nat)
  /-- RING_RESET (R402). A ring reset sets RESETTING, flushes unstarted descriptors and cancels parked migrations. -/
  | ringReset (ring : Nat)
  /-- RING_RESET_DRAIN_END (R402). Once the started descriptors have drained, moderation is reset and the ring becomes DISABLED. -/
  | ringResetDrainEnd (ring : Nat)
  /-- RING_PROGRESS_WATCHDOG (R485). A ring with no completion for RINGWD writes RING_HANG and requests a ring reset. -/
  | ringProgressWatchdog (ring : Nat)
  /-- ESCALATION (R488). A ring reset or quiesce not drained in 500 ms writes ESCALATION and requests a module reset. -/
  | escalation
  /-- MODULE_RESET (R490). A module reset freezes work, retains DRAM, resets logic, retrains and restores the store to the last heel. -/
  | moduleReset (reach : Nat) (sigs : ImgSig × ImgSig) (intact : Bool) (lost : List (Nat × Option Bytes))
  /-- RESET_STEP_LIMIT (R490). A module-reset step that exceeds its limit makes the module lost with RESET_FAIL. -/
  | resetStepLimit
  /-- RAS_RESET_GO (R489). Writing RAS_RESET.GO = 1 requests a module reset. -/
  | rasResetGo
  /-- RESET_PIN (R564). A falling edge of RESET# held for 1 µs requests a module reset, or is absorbed. -/
  | resetPin
  /-- LINE_CACHE_FILL_END (R337). A page fill from flash completes and the waiting accesses are served. -/
  | lineCacheFillEnd (page : Nat) (ecc : Option Ecc) (can : Bool)
  /-- FLASH_PROGRAM_END (R334). After every codeword of a new slot is programmed, the map entry is written and the old slot invalidated. -/
  | flashProgramEnd (unit : Nat) (ok : Bool)
  /-- DIRTY_WRITEBACK (R338). Dirty frames above DIRTY_HI start write-backs of units in LRU order. -/
  | dirtyWriteback
  /-- GARBAGE_COLLECTION (R335). A channel below 4 % free slots relocates the valid slots of an erase block and erases it. -/
  | garbageCollection (ch : Nat) (ok : Bool)
  /-- FLASH_BUDGET_ACCRUAL (R342). Every millisecond each kennel's flash budget balance gains RATE / 1,000 up to BURST. -/
  | flashBudgetAccrual
  /-- LEASH_ACCRUAL (R409). Every microsecond each leash gains RATE / 256 tokens up to BURST, and held work may be granted. -/
  | leashAccrual
  /-- LEAK_PERIOD (R482). Every leak period each leaky counter above 0 falls by 1. -/
  | leakPeriod (kind : Nat)
  /-- SYS_LOCK (R8). Writing SYS_LOCK.LOCK = 1 makes every RWL field read-only. -/
  | sysLock
  /-- WINDOW_OPEN (R137). Writing XLT_WCTL.OPEN = 1 opens a FREE window if size, collar and kennel check, and otherwise sets ERR. -/
  | windowOpen (window : Nat) (value : Nat)
  /-- FAULT_RING_ENABLE (R179). Writing FN_FRCTL.EN = 1 enables the fault ring and zeroes FTAIL and FHEAD, or is ignored. -/
  | faultRingEnable (fn : Nat) (value : Nat)
  /-- TIER_ENABLE (R327). Writing TIR_CTL.EN = 1 applies the region sizes and starts serving the store, or is refused with ERR. -/
  | tierEnable (value : Nat)
  /-- QUOTA_WRITE (R341). A quota write is applied, or ignored with QERR when the region would be exceeded. -/
  | quotaWrite (knl : Nat) (kind : Nat) (value : Nat)
  /-- LEASH_WRITE (R415). A write to LSH_RATE or LSH_WGT sets the leash's balance, fraction and deficit to 0. -/
  | leashWrite (level : Nat) (inst : Nat) (wgt : Bool) (value : Nat)
  /-- RAS_LKCFG_WRITE (R482). A write to RAS_LKCFG sets the threshold and window and clears every counter of its kind. -/
  | rasLkcfgWrite (kind : Nat) (value : Nat)
  /-- FENCE_AND_TEST (R496). RAS_FENCE with OP = 1 fences an instance and starts its self-test, or is refused. -/
  | fenceAndTest (kind : Nat) (inst : Nat)
  /-- RETURN (R496). RAS_FENCE with OP = 2 tests if needed and returns an instance to service. -/
  | returnResource (kind : Nat) (inst : Nat)
  /-- SELF_TEST_END (R497). A fenced resource's self-test ends with pass or fail, and a RETURN or FENCE record is written. -/
  | selfTestEnd (pass : Bool)
  /-- DOMAIN_SWITCH (R535). Writing PWR_DCTL.REQ switches a domain on or off under the conditions of the rule, or sets ERR. -/
  | domainSwitch (dom : Nat) (on : Bool)
  /-- DOMAIN_DRAIN_END (R535). A DRAINING bay domain that holds no work or segment is switched off. -/
  | domainDrainEnd (dom : Nat)
  /-- ORDERLY_POWER_DOWN (R548). PWR_OFFREQ.GO starts the orderly power-down: holds are set and descriptors drain. -/
  | orderlyPowerDown
  /-- POWER_DOWN_SAVE_END (R548). Once the save has been written, links and domains are switched off and PHASE becomes OFF_SAFE. -/
  | powerDownSaveEnd (env : List Reply)
  /-- FW_WRITE (R512). The SEC mailbox command FW_WRITE writes image pages to the inactive slot and claims the update. -/
  | fwWrite (page : Nat) (data : Bytes)
  /-- FW_COMMIT (R513). The SEC mailbox command FW_COMMIT checks the written slot and marks it PENDING, or sets ERR. -/
  | fwCommit (img : ImgSig)
  /-- FW_ABORT (R512). The SEC mailbox command FW_ABORT abandons the update claim. -/
  | fwAbort
  /-- UPDATE_CLAIM_TIMEOUT (R512). An update claim with no write for 60 s ends. -/
  | updateClaimTimeout
  /-- SVN_ADVANCE (R508). The command SVN_ADVANCE blows fuse bits up to the target SVN, no higher than the running SVN. -/
  | svnAdvance (target : Nat)
  /-- GET_CERT (R505). The SEC mailbox command GET_CERT returns the certificate at a chain position. -/
  | getCert (pos : Nat)
  /-- DBG_CHALLENGE (R529). The command DBG_CHALLENGE returns a fresh 32-byte debug nonce. -/
  | dbgChallenge
  /-- DBG_UNLOCK (R529). The command DBG_UNLOCK checks a token, then ends TDIs, sessions and keys and raises the debug state. -/
  | dbgUnlock (token : Bytes) (sig : Bool)
  /-- TRACE_ENABLE (R217). Setting SHP_CTL.TRACE_EN from 0 to 1 empties the step trace buffer. -/
  | traceEnable (bay : Nat) (value : Nat)
  /-- PTR_PDATA0 (R118). A read of PTR_PDATA0 takes a snapshot of the selected directory entry. -/
  | ptrPdata0 (slice : Nat)
  /-- SHP_TDATA0 (R218). A read of SHP_TDATA0 takes a snapshot of the selected step-table slot. -/
  | shpTdata0
  /-- RTV_RDATA0 (R292). A read of RTV_RDATA0 takes a snapshot of the selected redirect entry. -/
  | rtvRdata0
  /-- REGISTER_READ_CLEAR (R581). A read of a register with RC fields returns them and clears those wholly covered by the access. -/
  | registerReadClear (sp : Space) (off : Nat) (width : Nat) (tee : Bool)
  /-- WINDOW_WRITE (R577). A write through a broadcast or group window acts as one write to each present instance of the target set. -/
  | windowWrite (off : Nat) (width : Nat) (value : Nat)
  /-- WINDOW_READ (R578). A read through a window reads the lowest-numbered instance of the target set only. -/
  | windowRead (off : Nat) (width : Nat)
  /-- REGISTER_WRITE (R17). A write to a register with no row of its own acts by its fields' access types and the lock. -/
  | registerWrite (sp : Space) (off : Nat) (width : Nat) (value : Nat) (tee : Bool) (sig : Bool) (img : ImgSig)
  /-- POWER_ON (R546). Input present for 10 ms starts the start-up sequence: TMR, straps, RTP boot, domains, DRAM and flash. -/
  | powerOn (mfg : Mfg) (slotid : Nat) (recov : Bool) (reach : Nat) (sigs : ImgSig × ImgSig) (report : Option (Nat × Bool))
  /-- STARTUP_STEP_LIMIT (R546). A start-up step that exceeds its limit stops the sequence with PHASE = OFF_FAULT. -/
  | startupStepLimit
  /-- PROTECTIVE_SHUTDOWN (R533). Input outside 30 V to 42 V for 100 µs switches off every switched domain. -/
  | protectiveShutdown (high : Bool)
  /-- INPUT_RECOVERY (R533). Input back within range for 100 ms restarts the module from step 2 of start-up. -/
  | inputRecovery (reach : Nat) (sigs : ImgSig × ImgSig) (report : Option (Nat × Bool))
  /-- THERMAL_TRIP (R541). A sensor at its trip point switches off every domain and asserts THERMTRIP#. -/
  | thermalTrip (sensor : Nat)
  /-- SENSOR_SAMPLE (R540). Every 1 ms the sensors are read, and throttling, refresh and alerts are updated. -/
  | sensorSample (temps : List (Nat × Nat))
  /-- POWER_SAMPLE (R537). Every 10 µs the input is sampled, and D falls to 8 when the 10 µs average exceeds LIMIT × 1.08. -/
  | powerSample (mv : Nat) (ma : Nat)
  /-- DUTY_ADJUST (R537). Every 100 µs the duty D moves by 1 against the 1 ms average. -/
  | dutyAdjust
  /-- LOSTLOCK (R544). A PLL whose lock detector drops counts LOSTLOCK and holds its frequency. -/
  | lostlock (pll : Nat)
  /-- MARGIN_MEASUREMENT (R500). Every PERIOD seconds eyes, DRAM margins and rails are measured, and MARGIN records are written. -/
  | marginMeasurement (eyes : List (Nat × Nat × Nat × Nat)) (drams : List (Nat × Nat × Nat)) (rails : List (Nat × Nat × Nat))
  /-- ALERT_STATUS (R567). The sideband command ALERT_STATUS returns the alert cause mask, queue depth and LOST. -/
  | alertStatus
  /-- ALERT_CLEAR (R567). The sideband command ALERT_CLEAR clears the named cause bits. -/
  | alertClear (mask : Nat)
  /-- FAULT_READ (R568). The sideband command FAULT_READ returns and removes up to 4 queued fault records. -/
  | faultRead
  /-- MAP_STATUS (R569). The sideband command MAP_STATUS returns the map epoch, log position and keeper state. -/
  | mapStatus
  /-- POWERDOWN (R566). The sideband command POWERDOWN starts the orderly power-down inside a secured session. -/
  | powerdown (sess : Option Nat)
  /-- VENDOR_MODULE_RESET (R566). The sideband command MODULE_RESET requests a module reset inside a secured session. -/
  | vendorModuleReset (sess : Option Nat)
  /-- MAP_GENESIS (R570). The sideband command MAP_GENESIS stores the genesis entry as index 1 of an empty keeper log, or is refused. -/
  | mapGenesis (sess : Option Nat) (recs : List MapRecs)
  /-- MAP_PROPOSE (R570). The sideband command MAP_PROPOSE forwards a change to the lead keeper as PROPOSE. -/
  | mapPropose (sess : Option Nat) (ch : Change)
  /-- VENDOR_DBG_CHALLENGE (R529). The sideband DBG_CHALLENGE returns a debug nonce. -/
  | vendorDbgChallenge
  /-- VENDOR_DBG_UNLOCK (R529). The sideband DBG_UNLOCK checks a token and unlocks debug. -/
  | vendorDbgUnlock (token : Bytes) (sig : Bool)
  /-- GET_TID (R566). The PLDM command GetTID returns the terminus ID. -/
  | getTid
  /-- SET_TID (R566). The PLDM command SetTID sets the terminus ID. -/
  | setTid (tid : Nat)
  /-- GET_PLDM_VERSION (R566). The PLDM command GetPLDMVersion returns the supported versions. -/
  | getPldmVersion (type : Nat)
  /-- GET_PLDM_TYPES (R566). The PLDM command GetPLDMTypes returns the supported types. -/
  | getPldmTypes
  /-- GET_PLDM_COMMANDS (R566). The PLDM command GetPLDMCommands returns the supported commands. -/
  | getPldmCommands (type : Nat)
  /-- GET_PDR (R566). The PLDM command GetPDR returns a PDR. -/
  | getPdr (handle : Nat)
  /-- GET_PDR_REPOSITORY_INFO (R566). The PLDM command GetPDRRepositoryInfo returns the repository information. -/
  | getPdrRepositoryInfo
  /-- GET_SENSOR_READING (R566). The PLDM command GetSensorReading returns a numeric sensor. -/
  | getSensorReading (sensor : Nat)
  /-- GET_STATE_SENSOR_READINGS (R566). The PLDM command GetStateSensorReadings returns MSTATE or PHASE. -/
  | getStateSensorReadings (sensor : Nat)
  /-- QUERY_DEVICE_IDENTIFIERS (R566). The PLDM command QueryDeviceIdentifiers returns the device identifiers. -/
  | queryDeviceIdentifiers
  /-- GET_FIRMWARE_PARAMETERS (R566). The PLDM command GetFirmwareParameters returns the firmware parameters. -/
  | getFirmwareParameters
  /-- REQUEST_UPDATE (R512). The PLDM command RequestUpdate claims the firmware update, or is answered BUSY. -/
  | requestUpdate
  /-- PASS_COMPONENT_TABLE (R566). The PLDM command PassComponentTable accepts the single image component. -/
  | passComponentTable (components : Nat)
  /-- UPDATE_COMPONENT (R566). The PLDM command UpdateComponent starts the transfer of the image. -/
  | updateComponent (size : Nat)
  /-- FIRMWARE_DATA (R512). Image data returned for RequestFirmwareData is written to the inactive slot, ending in a check under R513. -/
  | firmwareData (data : Bytes) (img : ImgSig) (other : ImgSig)
  /-- ACTIVATE_FIRMWARE (R514). The PLDM command ActivateFirmware reports activation at the next module reset or power-on. -/
  | activateFirmware
  /-- GET_STATUS (R566). The PLDM command GetStatus returns the update status. -/
  | getStatus
  /-- CANCEL_UPDATE_COMPONENT (R566). The PLDM command CancelUpdateComponent cancels the component transfer. -/
  | cancelUpdateComponent
  /-- CANCEL_UPDATE (R512). The PLDM command CancelUpdate ends the update claim. -/
  | cancelUpdate
  /-- LOST_ALIGNMENT (R443). An UP link whose receiver loses FEC and alignment-marker framing leaves UP and trains again, keeping unacknowledged flits for replay. -/
  | lostAlignment (link : Nat)
  /-- FRAMING_LOCK (R444). After equalisation a training link locks codeword and alignment-marker framing and deskews its lanes, and the ends exchange IDENT. -/
  | framingLock (link : Nat)
  /-- CXL_LINK_UP (R419). The CXL port completes training to DL_Up, negotiates CXL or comes up PCIe only, sets CXP_LSTAT and updates the CDAT. -/
  | cxlLinkUp (width : Nat) (rate : Nat) (cxl : Bool) (lopt : Bool)
  /-- INPUT_REMOVAL (R541). The input falling below 20 V takes down the always-on domain, clears a latched thermal trip and releases THERMTRIP#. -/
  | inputRemoval
  /-- DOMAIN_SWITCH_ON_END (R535). A domain in STARTING finishes its switch-on (stack trained, cluster loaded, links down), becomes ON, and the next queued switch starts. -/
  | domainSwitchOnEnd (dom : Nat)
  /-- POWER_DOWN_QUIET_LIMIT (R548). 500 ms after step 2 of the orderly power-down the module stops waiting for KNL_INFLT.COUNT and proceeds to the recall of step 3. -/
  | powerDownQuietLimit
  /-- DEVICE_LOST (R493). A whole DRAM stack, flash channel, I/O die or bridge stops answering, and the module is lost with reason DEVICE_LOST. -/
  | deviceLost
  /-- INTR (R460). A received INTR message addressed to this module is answered with CMP, subject to its accepted sources. -/
  | intr (h : Hdr)
  /-- MCTP_CONTROL (R566). An MCTP control message on the sideband is answered in every state, including recovery. -/
  | mctpControl (cmd : Nat) (arg : Nat)
  /-- SETAASA (R565). The I3C SETAASA command makes the target adopt its static address 0x40 + SLOTID as its dynamic address. -/
  | setaasa
  /-- ENTDAA (R565). The I3C ENTDAA procedure assigns a dynamic address to a target whose SLOTID is 62 or 63. -/
  | entdaa (addr : Nat)
  /-- INTERFACE_REPORT (R521). A TDISP interface report request returns the VF's MMIO ranges and its kennel and window entries. -/
  | interfaceReport (sess : Nat) (fn : Nat)
  deriving DecidableEq, Repr

end Sys2Proof
end

