-- ==== Sys2Proof/Decode.lean ====
section
/-! DEFINITION. The words of the table's rows. No row of spec/opcode_table.json gives a command bits: the commands are
register accesses, messages, wire events and clock events, and none is spelt by a word. -/
namespace Sys2Proof

/-- The command that a word of nbits bits spells: none, for any word. DESIGN CHOICE (log 1). -/
def decodeTableWord (_nbits _w : Nat) : Option Instr := none

end Sys2Proof
end

