-- ==== Sys2Proof/Machine/State.lean ====
section
/-! DEFINITION. The block's state as plain data: every register field under one table, the store, the directory, the
tiers, the rings and their descriptors, the links, the root of trust, and the queue of waiting commands. -/
namespace Sys2Proof.Machine

/-- Why the block would stop with a fault. No meaning raises one: every row of the table has an effect in the spec or
is no event in the state it finds (safe: the type only fills the interface). -/
inductive Fault
  /-- Raised by nobody: every command answers a next state. Safe. -/
  | none
  deriving DecidableEq, Repr

/-- Why a command would be refused. -/
inductive Refusal
  /-- Raised by exec's arm of a row whose meaning is not written. Safe: the model stops. -/
  | notModelled (mnemonic : String)
  deriving DecidableEq, Repr

/-- Register access types (R17). -/
inductive Acc
  | rw | ro | wo | w1c | w1s | rc | rwl
  deriving DecidableEq, Repr

/-- One field of one register: the register's number, the field's low bit and width, its access type and its value
after power-on. -/
structure Fld where
  reg : Nat
  lo  : Nat
  w   : Nat
  acc : Acc
  rst : Nat
  deriving DecidableEq, Repr

/-- Which instances of a register are present (R5). -/
inductive Presence
  | always | link | flash | stack | sensor | domain | fnFrom1
  deriving DecidableEq, Repr

/-- A register of PF0 BAR0, or an array of one: instance (i, j) is at base + i * s1 + j * s2, and its instance number
is i * n2 + j. -/
structure RegDef where
  id   : Nat
  base : Nat
  s1   : Nat
  n1   : Nat
  s2   : Nat
  n2   : Nat
  pres : Presence
  flds : List Fld
  deriving DecidableEq, Repr

/-- A holder of copies outside the module: a fabric node or a host's SPID (R72, R76). -/
inductive Agent
  | node (n : Nat)
  | spid (i : Nat)
  deriving DecidableEq, Repr

/-- A sequenced flit (R441, R445): its SEQ, and the message it begins, or the LINKCTL record it carries (3 RETRY_REQ, 4
CREDIT, 5 KEY_SWITCH, 6 KEY_READY) with its words; neither for a flit that continues a message. -/
structure TxFlit where
  seq : Nat
  msg : Option Msg := none
  ctl : Option (Nat × List Nat) := none
  deriving DecidableEq, Repr

/-- What the block lets the outside see, oldest first in `Dev.out`. -/
inductive Out
  /-- The value a register access returns. -/
  | value (v : Nat)
  /-- A message this module hands to its switch. -/
  | msg (m : Msg)
  /-- A sequenced flit sent on a link, with its ACK and its credit return (R441). -/
  | flit (link : Nat) (f : TxFlit) (ack cvc crd : Nat)
  /-- A posted write of function f's DMA to host memory: address and 8-byte words, and the T bit (R521). -/
  | hostWrite (f addr : Nat) (words : List Nat) (tee : Bool)
  /-- An MSI-X memory write of function f, vector v, over CXL.io, and the T bit. -/
  | msix (f v addr data : Nat) (tee : Bool)
  /-- A CXL.mem completion without data (Cmp, with the MetaValue state granted: 0 I, 1 S, 2 A), or with data, to the host
  with this PBR ID (0 in HBR mode), with DevLoad (R424): 0 Light, 1 Optimal, 2 Moderate, 3 Severe. -/
  | cxlCmp (host tag grant load : Nat)
  | cxlData (host tag grant load : Nat) (poison : Bool) (b : Bytes)
  /-- A back-invalidation snoop to a host, of a line of the store: BISnpInv or BISnpData (R86). -/
  | biSnp (host line : Nat) (inv : Bool)
  /-- BIConflictAck (R86). -/
  | biConflictAck (host line : Nat)
  /-- The CDAT over the first DOE instance: one list of values for each structure (R436). -/
  | cdat (entries : List (List Nat))
  /-- A response of the CCI mailbox: return code and payload words. -/
  | mailbox (code : Nat) (payload : List Nat)
  /-- A DOE or MCTP response of the root of trust: protocol message code and payload words. -/
  | spdm (code : Nat) (payload : List Nat)
  /-- A response over the sideband: completion code and payload words. -/
  | sideband (code : Nat) (payload : List Nat)
  /-- A PLDM request of this module over the sideband: command code and fields. -/
  | pldmReq (cmd : Nat) (fields : List Nat)
  /-- An unsequenced LINKCTL record of a link that trains: 1 IDENT, 2 KEYMSG, and its words (R442, R444). -/
  | linkctl (link kind : Nat) (words : List Nat)
  /-- A KEEP message to a node (R470). -/
  | keep (dst : Nat) (m : KeepMsg)
  deriving DecidableEq, Repr

/-! ### The transition controller (spec/01, R38 to R41) -/

/-- The transitions, in R38's order of priority. -/
inductive Tr
  | moduleReset (cause : Nat)
  | rollback (cause : Nat)
  | heel
  | revoke (k : Nat)
  | quiesce (f : Nat)
  | ringReset (r : Nat)
  | mapApply
  deriving DecidableEq, Repr

/-- A transition that runs or is suspended, and when its first step was taken. -/
structure Running where
  tr : Tr
  since : Nat
  deriving DecidableEq, Repr

/-! ### Rings and descriptors (spec/05) -/

/-- What a descriptor ended with: status, FREC, RESULT_A, RESULT_B and the bay that ran it. -/
structure Res where
  status : Nat
  frec : Nat := 0
  ra : Nat := 0
  rb : Nat := 0
  bay : Option Nat := none
  deriving DecidableEq, Repr

/-- Where a fetched descriptor is. -/
inductive Place
  /-- At the ring manager: waiting for a dispatch queue, or for an XLATE_INVAL slot (R35, R141). -/
  | waiting
  /-- In the dispatch queue of a bay. -/
  | queued (bay : Nat)
  /-- On a step thread. -/
  | running (bay thr : Nat)
  /-- Executed without a bay: a FENCE, a HEEL or an XLATE_INVAL in progress. -/
  | control
  /-- Discarded by a rollback: completes with REPLAY when the group resumes (R184, R380). -/
  | replay
  /-- A ROW_MIGRATE in PENDING_COMMIT (R286). -/
  | parked (bay : Nat) (skipped : Nat) (late : Bool)
  /-- Ended: the completion record is due. -/
  | ended (r : Res)
  deriving DecidableEq, Repr

/-- A descriptor fetched and not yet completed: its ring and index, its eight words, its deadline and its place, and
the epoch in force at its fetch. -/
structure Job where
  ring : Nat
  idx : Nat
  words : List Nat
  deadline : Option Nat := none
  place : Place := .waiting
  epoch : Nat := 0
  /-- A ROW_MIGRATE whose rows a heel has committed: what it completes with at the cut (R288). -/
  commit : Option Res := none
  deriving DecidableEq, Repr

/-! ### The directory (spec/03) -/

/-- A directory entry (R75), keyed by slice, set and way. -/
structure DirEnt where
  line : Nat
  owned : Bool
  ovf : Bool := false
  collar : Nat
  p0 : Option Agent := none
  p1 : Option Agent := none
  p2 : Option Agent := none
  p3 : Option Agent := none
  /-- Allocation order, for R112. -/
  born : Nat := 0
  deriving DecidableEq, Repr

/-- An atomic (R94): operation, element type, whole line or one element, fetch, byte offset in the line, operands. -/
structure AtomOp where
  aop : Nat
  ety : Nat
  whole : Bool
  fetch : Bool
  at_ : Nat
  operand : Bytes
  cmp : Bytes := []
  deriving DecidableEq, Repr

/-- Who is answered. -/
inductive Src
  | fabric (node tag off link : Nat)
  | host (spid tag : Nat)
  /-- Access number `acc` of the step thread. -/
  | thread (bay thr acc : Nat)
  /-- The home's own work: an eviction, a regroup, a scrub. -/
  | home
  deriving DecidableEq, Repr

/-- What a request asks of a line (R79, R85). -/
inductive Want
  | shared | own | upgrade | once
  /-- Ownership without data (MemInv). -/
  | inv
  /-- A read by an engine. -/
  | engRead
  | write (mask : Nat) (data : Bytes)
  /-- A write whose payload was lost: the poison marker goes into the lines in its place (R480, R433). -/
  | poison
  | atomic (a : AtomOp)
  /-- Remove every copy (eviction, regroup, revocation). -/
  | evict
  /-- Bring modified data home; the owner keeps a shared copy (R36, R364). -/
  | recall
  deriving DecidableEq, Repr

/-- The home's answer to an access of a step thread, not yet delivered: status (R458) and data. -/
structure EngAns where
  bay : Nat
  thr : Nat
  acc : Nat
  status : Nat
  data : Bytes := []
  deriving DecidableEq, Repr

/-- A snoop sent and not answered. -/
structure Snoop where
  agent : Agent
  line : Nat
  /-- 0 invalidate, 1 recall shared, 2 recall invalidating, 3 forward shared, 4 forward owned. -/
  kind : Nat
  deriving DecidableEq, Repr

/-- A transaction on one line (or on up to four of one granule, R459): what is asked and by whom, the snoops outstanding, the answers still due from the
sharing group's multicast (R90), the kennel that counts it (R56) and its start. -/
structure Txn where
  line : Nat
  n : Nat := 1
  collar : Nat
  want : Want
  src : Src
  snoops : List Snoop := []
  group : Nat := 0
  knl : Option Nat := none
  win : Option Nat := none
  since : Nat := 0
  /-- The owner sent the data itself. -/
  forwarded : Bool := false
  /-- The requester answered the group invalidation, so an UPGRADE is executed as RD_OWN (R90). -/
  lost : Bool := false
  deriving DecidableEq, Repr

/-! ### Leaky counters (spec/15, R482, R484) -/

/-- Leaky counter of resource `inst` of kind k. -/
structure Leak where
  kind : Nat
  inst : Nat
  c : Nat
  deriving DecidableEq, Repr

/-! ### Tiers (spec/10) -/

/-- The flash map entry of a unit that does not read as zero (R331). -/
inductive UnitHome
  | flash (slot : Nat) (comp : Bool)
  | pinned
  deriving DecidableEq, Repr

/-- A pinned unit record (R344): the flash copy kept, the pages written since, and the entries that pin the unit. -/
structure PinRec where
  fcopy : Option (Nat × Bool) := none
  dirty : Nat := 0
  pins : Nat := 1
  deriving DecidableEq, Repr

/-- A valid line-cache way: the page it holds and whether it is dirty. -/
structure LcWay where
  page : Nat
  dirty : Bool := false
  deriving DecidableEq, Repr

/-- A line-cache fill in flight and the accesses that wait for it (R337). -/
structure Fill where
  page : Nat
  since : Nat := 0
  /-- Codewords queued for it (R333). -/
  cws : Nat := 1
  /-- The page is not filled from flash but rebuilt from the pack (R385). -/
  reb : Bool := false
  waiting : List Txn := []
  deriving DecidableEq, Repr

/-- A dirty unit being written to a new slot (R334): its contents when the write started, relative to the unit. -/
structure Prog where
  unit : Nat
  slot : Nat
  comp : Bool
  data : Tbl Byte
  deriving DecidableEq, Repr

/-- An entry of the tier tensor table (R344). A shadow's codes and records are kept as bytes of shadow space. -/
structure TensEnt where
  shadow : Bool
  partialPin : Bool := false
  collar : Nat
  hdr : Nat
  ranges : List (Nat × Nat) := []
  epoch : Nat := 0
  prev : Option Nat := none
  sfmt : Nat := 0
  qmode : Nat := 0
  qblk : Nat := 0
  rows : Nat := 0
  rowlen : Nat := 0
  /-- A shadow was current from `made` to `ended`, in the order of Dev.seq. -/
  made : Nat := 0
  ended : Option Nat := none
  /-- The epoch in which it was superseded or dropped. -/
  endEpoch : Nat := 0
  knl : Option Nat := none
  units : Nat := 0
  data : Bytes := []
  deriving DecidableEq, Repr

/-! ### Heels (spec/11) -/

/-- An undo entry (R369) with its pre-image, relative to the page. -/
structure Undo where
  page : Nat
  epoch : Nat
  scrubbed : Bool := false
  parity : Bool := false
  zero : Bool := false
  lost : Bool := false
  reserve : Bool := false
  pre : Tbl Byte := []
  prePoison : List Nat := []
  deriving DecidableEq, Repr

/-- A handed object this module sent and that has no ACK yet (R388). -/
structure Handed where
  kind : Nat
  object : Nat
  gen : Nat
  dst : Nat
  since : Nat
  deriving DecidableEq, Repr

/-- What the leader keeps of a heel (R364): the epoch, the next one, the step (1 DRAIN, 2 HOLD, 3 CUT sent, 4 proposed, 5
aborted), when that message was sent, and the members that have reported. -/
structure HeelLead where
  e : Nat
  f : Nat := 0
  step : Nat := 1
  since : Nat := 0
  got : List Nat := []
  deriving DecidableEq, Repr

/-- What the leader keeps of a rollback (R380): the cause, and the members that have reported ROLLED with the highest epoch
each has seen. -/
structure RollLead where
  cause : Nat
  got : Tbl Nat := []
  deriving DecidableEq, Repr

/-- A request that waits for tokens (R414): what it wants, its class, its bytes, and the ports it has still to pass. -/
structure Waiting where
  txn : Txn
  cls : Nat
  len : Nat
  ports : List Nat
  deriving DecidableEq, Repr

/-! ### Retriever (spec/08) -/

/-- A redirect entry (R283), with the descriptor that holds it pending and the lines its write watch covers (R287). -/
structure Redir where
  valid : Bool
  pending : Bool
  dirty : Bool := false
  pmode : Nat := 0
  collar : Nat
  srow : Nat
  stable : Nat
  dtable : Nat := 0
  drow : Nat := 0
  ring : Nat := 0
  idx : Nat := 0
  watch : List Nat := []
  /-- The destination's lines on this module. -/
  dlines : List Nat := []
  deriving DecidableEq, Repr


/-! ### Translation (spec/04) -/

/-- A cached translation (R128): collar, page size 2^s, page number, output fabric address, rights, and whether Scent
installed it and no demand access has hit it. -/
structure Tlb where
  collar : Nat
  s : Nat
  p : Nat
  out : Nat
  r : Bool
  w : Bool
  a : Bool
  scent : Bool := false
  deriving DecidableEq, Repr

/-- A walk that waits or runs (R130): collar, 4 KiB page, whether a demand miss asked for it, whether it runs, whether an
XLATE_INVAL made it stale (R142), and the (bay, stream) pairs whose miss slots it fills; the first started it. -/
structure Walk where
  collar : Nat
  page : Nat
  demand : Bool
  started : Bool := false
  stale : Bool := false
  waiters : List (Nat × Nat) := []
  /-- Scent only: the tile (2 MiB) and whether it is the next one of its stream (R131). -/
  next : Bool := false
  deriving DecidableEq, Repr

/-- An XLATE_INVAL in progress (R141, R142): the ring and index of its descriptor. -/
structure Inval where
  ring : Nat
  idx : Nat
  target : Nat
  deriving DecidableEq, Repr

/-! ### Shepherds (spec/06) -/

/-- A stream context (R129, R197): declared sequential or indexed; its base, its length in bytes or rows, direction,
use, element size and row stride; the elements passed, and the indices left in the current bag. -/
structure Strm where
  indexed : Bool
  base : Nat
  len : Nat
  desc : Bool := false
  write : Bool := false
  lg : Nat := 0
  stride : Nat := 0
  pos : Nat := 0
  bag : Nat := 0
  deriving DecidableEq, Repr

/-- One issued access of a thread to one 256-byte granule, until its data or response arrives (R203, R204). -/
structure Access where
  id : Nat
  /-- The access step it belongs to, and that step's index. -/
  grp : Nat
  step : Nat
  /-- 0 load, 1 store, 2 atomic, 3 COPY read, 4 COPY write. -/
  kind : Nat
  fetch : Bool := false
  strm : Nat
  tva : Nat
  len : Nat
  /-- Waits for its translation; else issued to this output fabric address. -/
  waiting : Bool := true
  out : Nat := 0
  /-- XLT_GEN at its issue (R142). -/
  gen : Nat := 0
  /-- The tag of the fabric request that carries it, when another node is its home. -/
  tag : Option Nat := none
  /-- Where delivered data goes: operand reference and byte position there. -/
  dst : Nat := 0
  at_ : Nat := 0
  /-- What a write carries: byte mask from its first byte, and the bytes. -/
  mask : Nat := 0
  data : Bytes := []
  atom : Option AtomOp := none
  /-- The load ignores the deadline (NODL). -/
  nodl : Bool := false
  /-- Translated, and held at its port for lack of tokens (R413). -/
  held : Bool := false
  /-- The worst status of the requests of it that have been answered. -/
  st : Nat := 0
  deriving DecidableEq, Repr

/-- A fault latch (R207): the status, the record it holds (TYPE 0 when it holds none), and whether it was written. -/
structure Latch where
  status : Nat
  type : Nat
  engine : Nat
  step : Nat
  node : Option Nat := none
  w20 : Nat := 0
  w28 : Nat := 0
  w30 : Nat := 0
  w38 : Nat := 0
  written : Bool := false
  deriving DecidableEq, Repr

/-- A step thread that is not FREE (R191, R192). -/
structure Thread where
  ring : Nat
  idx : Nat
  op : Nat
  collar : Nat
  words : List Nat
  deadline : Option Nat := none
  /-- 1 RUNNING, 2 STALLED, 3 DRAINING. -/
  state : Nat := 1
  step : Nat
  sreg : Tbl Nat := []
  lc : Tbl Nat := []
  strms : Tbl Strm := []
  /-- The condition flags (R200) as last reported, and those not yet known. -/
  flags : Nat := 1
  unk : Nat := 0
  /-- The current step has issued and its next-step selection waits for a flag or, for a WAIT, for a class of accesses. -/
  sel : Bool := false
  wait : Nat := 0
  /-- Groups of accesses whose POISON and ACCERR the flags refer to: from this one on. -/
  grp : Nat := 0
  nextAcc : Nat := 0
  accs : List Access := []
  /-- Pages of its streams' miss slots: (stream, 4 KiB page, demand) (R129, R132). -/
  slots : List (Nat × Nat × Bool) := []
  /-- When it started, in the order of Dev.seq (R36). -/
  start : Nat := 0
  latch : Option Latch := none
  /-- How the run was told to end: 0 COMPLETE, 1 FAULT, 2 PARK; with the status and results its DONE step gives (R208). -/
  done : Option (Nat × Res) := none
  /-- What it ended with, once its accesses have finished; PARK instead of a completion; or nothing is handed over
  (R193). -/
  res : Option Res := none
  park : Bool := false
  discard : Bool := false
  /-- The unwritten side slot it waits for: its TVA, its VSN, and when it was first and last read; and the slots given up
  (R315). -/
  side : Option (Nat × Nat × Nat × Nat) := none
  skips : List Nat := []
  deriving DecidableEq, Repr

/-- An entry of a step trace (R217). -/
structure TraceEnt where
  w0 : Nat
  w1 : Nat
  w2 : Nat
  w3 : Nat
  deriving DecidableEq, Repr

/-! ### Requests of this module over the fabric -/

/-- What an outstanding request of this module is for. -/
inductive Purpose
  | access (bay thr id : Nat)
  /-- Anything whose answer changes nothing more: a contribution, a record, an interrupt. -/
  | posted
  /-- A parity delta of the epoch being shipped (R377), and a block read to rebuild a page (R385). -/
  | delta
  | rebuild
  deriving DecidableEq, Repr

/-- An outstanding request (R485): its tag, target, message type, fabric address, the link it left on, when. -/
structure Req where
  tag : Nat
  dst : Nat
  mtype : Nat
  addr : Nat
  link : Option Nat
  since : Nat
  purpose : Purpose
  deriving DecidableEq, Repr

/-! ### Links (spec/14) -/

/-- What a link keeps beside its registers. -/
structure LinkSt where
  /-- R467: no new traffic; for a lasting fault, or for a self-test; or for a domain switch, which writes no record. -/
  retiring : Bool := false
  lasting  : Bool := false
  quiet    : Bool := false
  since    : Nat := 0
  /-- The training step in progress (R444), 0 outside training, and when it began; whether the link has trained since
  power-on, and TMR of the last retrain. -/
  step     : Nat := 0
  stepAt   : Nat := 0
  trained  : Bool := false
  lastRetrain : Option Nat := none
  /-- From the peer's IDENT: its node is valid, it allows PLAIN, the hash of its identity certificate. -/
  peerNodev : Bool := false
  peerPlain : Bool := false
  peerHash : Nat := 0
  /-- Key agreement (R523, R524): the peer's parts received so far, and those complete. -/
  parts    : Tbl Bytes := []
  partsDone : List Nat := []
  /-- Messages handed to the link and not sent, in order. -/
  txq      : List Msg := []
  /-- The last SEQ sent, the flits not yet acknowledged (R445), and the last SEQ received in order. -/
  txSeq    : Nat := 0
  replay   : List TxFlit := []
  rxLast   : Nat := 0
  /-- RETRY_REQs sent for the expected SEQ and when the last was sent (R446). -/
  retry    : Option (Nat × Nat) := none
  /-- Credits in hand and credits to return, by VC (R453, R454); deficits and turn of the weighted round robin (R455). -/
  cred     : List Nat := []
  owed     : List Nat := []
  defs     : List Nat := [0, 0, 0, 0]
  turn     : Nat := 0
  /-- Rekeying (R451): the counter value of the KEY_SWITCH sent, whether KEY_READY came, that of a KEY_SWITCH received,
  and multiples of 2^REKEY_LOG passed. -/
  sw       : Option Nat := none
  swReady  : Bool := false
  rxSw     : Option Nat := none
  rekeys   : Nat := 0
  /-- Slots sent and received below the unit of LNK_SLOTS. -/
  txRem    : Nat := 0
  rxRem    : Nat := 0
  deriving DecidableEq, Repr

/-! ### What the bays' own tables hold (spec/07 to spec/09) -/

/-- A combining segment (R254), 16 FP32 or up to 16 integer accumulators, or 32 for an FP16 or BF16 line (two segments):
its key, the elements touched, and whether it is applied whole whatever was touched. -/
structure CombSeg where
  collar : Nat
  addr : Nat
  op : Nat
  dty : Nat
  mask : Nat
  whole : Bool := false
  vals : List Nat
  deriving DecidableEq, Repr

/-- An entry of a bay's heavy-hitter sketch (R278): collar, bits [56:6] of the table header TVA, row. -/
structure SkEnt where
  collar : Nat
  table : Nat
  row : Nat
  count : Nat
  err : Nat
  deriving DecidableEq, Repr

/-- A candidate of a search context's queue (R300). -/
structure Cand where
  d : Nat
  node : Nat
  expanded : Bool
  eligible : Bool
  deriving DecidableEq, Repr

/-- A row in a thread's coalescing table (R265): multiplicity and weight sum. -/
structure CoalEnt where
  row : Nat
  m : Nat
  w : Nat
  deriving DecidableEq, Repr

/-! ### The CXL port (spec/13) -/

/-- A committed HDM decoder (R426, R427): its range of host addresses, interleave ways 2^iw, granularity 256 · 2^ig, this
module's position among the ways, Lock on Commit, and the DPA it starts at. -/
structure Hdm where
  dec  : Nat
  base : Nat
  size : Nat
  iw   : Nat
  ig   : Nat
  pos  : Nat
  lock : Bool
  dpa  : Nat
  deriving DecidableEq, Repr

/-- An extent of the extent list (R430, R431): its kennel, region, collar, map epoch, DPA start and length in GiB, and the
host's answer: 0 none yet, 1 accepted, 2 declined. -/
structure Extent where
  knl    : Nat
  region : Nat
  collar : Nat
  epoch  : Nat
  base   : Nat
  size   : Nat
  answer : Nat := 0
  deriving DecidableEq, Repr

/-- A record of the Dynamic Capacity event log (R431): handle, kind (0 Add Capacity, 2 Forced Capacity Release), the CXL
timestamp, and the extent. -/
structure DcEvent where
  handle : Nat
  kind   : Nat
  stamp  : Nat
  ext    : Extent
  deriving DecidableEq, Repr

/-! ### The root of trust (spec/16) -/

/-- An SPDM session (R515, R516): its identifier, its transport (0 DOE, 1 MCTP), whether FINISH has completed it, its
heartbeat period in ticks (0 none) and TMR of the last HEARTBEAT, and the sequence numbers received and sent. -/
structure Sess where
  id     : Nat
  via    : Nat
  est    : Bool := false
  period : Nat := 0
  last   : Nat := 0
  rx     : Nat := 0
  tx     : Nat := 0
  deriving DecidableEq, Repr


/-! ### Power (spec/17) -/

/-- What an orderly power-down has written to flash metadata beside the units (R548): EPC_LAST of its closing record, the
pinned units, the tier tensor table with its shadows, the undo entries and the redirect table. -/
structure Save where
  last  : Nat := 0
  pins  : Tbl PinRec := []
  tens  : Tbl TensEnt := []
  undo  : List Undo := []
  redir : Tbl Redir := []
  deriving DecidableEq, Repr

/-- A PLDM firmware update (R566): 0 idle, 1 learning components, 2 ready to transfer, 3 downloading, 4 verified and
applied; the bytes the component is to have and those received. -/
structure Pldm where
  st   : Nat := 0
  size : Nat := 0
  got  : Nat := 0
  deriving DecidableEq, Repr

/-! ### Keepers (spec/14, R468 to R473, R582) -/

/-- What a module keeps of the keeper protocol beside MAP_KEEP and MAP_KLOG. As a keeper: the log, entry i at place i − 1;
the records of every module as of the last committed entry; the vote of the term; as a candidate the votes got; as lead
the highest index stored at each keeper and the epochs applied; as a follower the highest index that matches the lead's;
TMR of the last heartbeat received and sent. As any module: the lead last known, the keeper asked for records and when,
and TMR of the last FETCH. -/
structure Keep where
  log     : List LogEnt := []
  kmap    : List MapRecs := []
  voted   : Option Nat := none
  votes   : List Nat := []
  cand    : Bool := false
  acks    : Tbl Nat := []
  applied : Tbl Nat := []
  matched : Nat := 0
  heard   : Nat := 0
  sent    : Nat := 0
  lead    : Option Nat := none
  asked   : Option Nat := none
  askedAt : Nat := 0
  fetched : Nat := 0
  deriving DecidableEq, Repr

/-- The store: memory, the directory and its transactions, and the tiers behind it (spec/02, spec/03, spec/10). DESIGN CHOICE (log 16). DEDUCED (log 17). -/
structure StoreSt where
  /-- The store at the point of coherence, by store offset; an unlisted byte reads as zero (R59, R60). -/
  mem   : Tbl Byte := []
  /-- Poisoned lines, by line number (R115), rising. -/
  poison : List Nat := []
  /-- Directory entries by (slice * 8192 + set) * 16 + way (R74, R75). -/
  dir     : Tbl DirEnt := []
  /-- Entries allocated so far, the age of R112. -/
  born    : Nat := 0
  /-- Transactions in trackers, in the conflict queues, and victims being removed (R78, R113). -/
  trackers : List Txn := []
  conflict : List Txn := []
  victims : List Txn := []
  /-- Lines in the atomic line buffers, least recently changed first (R98). -/
  abuf    : List Nat := []
  /-- Agents declared failed (R114). -/
  failed  : List Agent := []
  /-- Leaky counters above zero (R482). -/
  leaks   : List Leak := []
  /-- Flash map entries of units that are not ZERO (R331), and the pinned unit records by unit (R344). -/
  fmap    : Tbl UnitHome := []
  pins    : Tbl PinRec := []
  /-- The contents of flash: of each mapped unit, the bytes last programmed. -/
  flash   : Tbl Byte := []
  /-- Units being programmed (R334). -/
  progs   : List Prog := []
  /-- Compressed units whose bitmaps are cached, least recently read first (R333). -/
  bmCache : List Nat := []
  /-- Fractions of the flash write budgets, in thousandths of a codeword, by kennel (R342). -/
  budFrac : Tbl Nat := []
  /-- Valid line-cache ways, least recently used first (R338), and fills in flight (R337). -/
  lc      : List LcWay := []
  fills   : List Fill := []
  /-- Per channel: the next slot never used, slots invalid and not erased, and slots erased (R334, R335). -/
  slotNext : Tbl Nat := []
  stale   : Tbl (List Nat) := []
  erased  : Tbl (List Nat) := []
  /-- Per channel: write sequence (R332). -/
  wseq    : Tbl Nat := []
  /-- Erase counts by channel * 2³² + erase block. -/
  erases  : Tbl Nat := []
  /-- The tier tensor table by entry number (R344). -/
  tens    : Tbl TensEnt := []
  /-- Frames retired, as region * 2⁶⁰ + frame identity (R355). -/
  retired : List Nat := []
  /-- Undo entries, oldest first (R369). -/
  undo    : List Undo := []
  /-- What homes hold back (0 nothing, 1 a heel's hold, 2 a rollback's, 3 a module reset's of a module in no group), and the requests held (R364, R380). -/
  hold    : Nat := 0
  held    : List Txn := []
  /-- Answers due at step threads (R204). -/
  answers : List EngAns := []
  /-- Requests held at a port for lack of tokens, in arrival order (R413, R414). -/
  portHeld : List Waiting := []
  /-- The boot flash: byte o of slot A at o and of slot B at 2²⁵ + o (R502). -/
  bootFlash : Tbl Byte := []
  deriving DecidableEq, Repr

/-- The work: rings, descriptors, interrupts, translation, step threads and the tables of the bays (spec/04 to spec/09). DESIGN CHOICE (log 16). -/
structure WorkSt where
  /-- Descriptors fetched and not completed, in fetch order. -/
  jobs    : List Job := []
  /-- Per ring: the descriptors not yet fetched, as (first index not covered, T_db) in order (R158). -/
  tdb     : Tbl (List (Nat × Nat)) := []
  /-- Per ring: completions pending an interrupt, and when the moderation timer started (R173). -/
  irqP    : Tbl Nat := []
  irqT    : Tbl Nat := []
  /-- Per ring: TMR of the last completion, or of OUTSTANDING leaving 0 (R485). -/
  lastCpl : Tbl Nat := []
  /-- Rings halted by a failed completion write: first lost index and number lost (R172). -/
  cplLost : Tbl (Nat × Nat) := []
  /-- Deficits of the contenders of R412. -/
  deficit : Tbl Nat := []
  /-- The contender last visited at each arbitration point (R412). -/
  visited : Tbl Nat := []
  /-- MSI-X tables: word w of entry v of function f at key (64 f + v) * 4 + w (R405). -/
  msix    : Tbl Nat := []
  /-- Vectors pending in the PBAs, 64 f + v, rising (R405, R406). -/
  pba     : List Nat := []
  /-- MSI-X Enable and Function Mask of each function's configuration space. -/
  msixCtl : Tbl Nat := []
  /-- Functions whose running quiesce discards HOST-placed records (R399). -/
  hostDisc : List Nat := []
  /-- The redirect table by entry number (R283), and its copy in flash of the last heel (R288, R291). -/
  redir   : Tbl Redir := []
  redirFlash : Tbl Redir := []
  /-- Bay translation caches by bay * 512 + set, and the shared cache by quarter * 1024 + set, least recently used first
  (R128). -/
  bayTlb  : Tbl (List Tlb) := []
  shrTlb  : Tbl (List Tlb) := []
  /-- Translation walks waiting and in flight, in order (R130), and the stream whose turn each group last used. -/
  walks   : List Walk := []
  walkTurn : Tbl Nat := []
  /-- The XLATE_INVAL in progress (R141), and windows closing with the ring and index of the descriptor (R144). -/
  inval   : Option Inval := none
  closing : List (Nat × Nat × Nat) := []
  /-- Step-table memory: word w of slot s at 2 s + w, one image for every loaded cluster (R212), and its SLOTS. -/
  steps   : Tbl Nat := []
  slots   : Nat := 0
  /-- Threads that are not FREE, by bay * 8 + thread. -/
  threads : Tbl Thread := []
  /-- Vector registers: byte i of V[v] of thread t at (t * 16 + v) * 2048 + i, t = bay * 8 + thread. -/
  vregs   : Tbl Byte := []
  /-- Bay scratch: byte i of thread t's partition at t * 524288 + i. -/
  scratch : Tbl Byte := []
  /-- Pinned windows (R111): byte i of the window of thread t's descriptor at t * 2⁴⁰ + i. -/
  pwin    : Tbl Byte := []
  /-- Step traces by bay, entry e at bay * 1024 + e (R217). -/
  trace   : Tbl TraceEnt := []
  /-- Requests of this module outstanding on the fabric, and tags not to be used until a time (R485). -/
  reqs    : List Req := []
  deadTags : Tbl Nat := []
  /-- Free values used so far: the model's own counter, not the spec's (see Config.freeValue). -/
  fresh   : Nat := 0
  /-- By ring: the first descriptor index fetched in the epoch in force (R184). -/
  epochFirst : Tbl Nat := []
  /-- By thread (bay * 8 + thread): the function whose descriptor its scratch partition last served (R397). -/
  scrOwner : Tbl Nat := []
  /-- The order of thread starts and shadow switches (R36): the model's own counter. -/
  seq     : Nat := 0
  /-- Combining segments by bay, least recently used first (R254, R255). -/
  comb    : Tbl (List CombSeg) := []
  /-- Sketch entries by bay * 256 + entry (R278). -/
  sketch  : Tbl SkEnt := []
  /-- Candidate queues by bay * 64 + 8 * thread + context (R300). -/
  pq      : Tbl (List Cand) := []
  /-- Coalescing tables by bay * 8 + thread (R265). -/
  coal    : Tbl (List CoalEnt) := []
  /-- A heel or an orderly power-down holds every ring (R364, R548): the HEEL hold of R162. -/
  heelHold : Bool := false
  deriving DecidableEq, Repr

/-- The transitions, the map, the heel group, the keepers, and what a reset or a power-down keeps (spec/01, spec/02, spec/11, spec/14, spec/15, spec/17). DESIGN CHOICE (log 16). -/
structure GroupSt where
  /-- The transition that runs, on top of those it suspended (R39). -/
  running : List Running := []
  /-- Transitions requested, in arrival order (R38). -/
  wanted  : List Tr := []
  /-- The records of the map in force, and of a committed epoch fetched and not yet applied. -/
  map     : MapRecs := {}
  nextMap : Option MapRecs := none
  /-- Handed objects in HANDING, and the highest generation seen of each object (R388). -/
  handing : List Handed := []
  gens    : Tbl Nat := []
  /-- At the leader: a heel of the epoch in force is asked for; and the last epoch for which this module asked for a
  forced heel (R364, R372). -/
  heelAsked : Bool := false
  forcedFor : Nat := 0
  /-- Resources fenced or retired for a lasting fault, as kind * 128 + instance (R496). -/
  lasting : List Nat := []
  /-- STRUCT of the last event of each resource, by kind * 128 + instance (R486). -/
  lastStruct : Tbl Nat := []
  /-- TMR of the starts of module resets (R492), the reason the module is lost (R494), 0 while it is not, and whether a map
  epoch has omitted the lost module, so that its links stay down. -/
  resetTimes : List Nat := []
  lostFor : Nat := 0
  omitted : Bool := false
  /-- This module's place in the heel: 0 none, 1 draining, 2 DRAINED reported, 3 holding, 4 HELD reported, 5 shipping, 6
  SHIPPED reported; and the epoch whose parity it ships, not yet committed. -/
  heelStep : Nat := 0
  shipE   : Option Nat := none
  /-- As epochFirst, for the epoch in shipE. -/
  epochPrev : Tbl Nat := []
  /-- What the leader keeps of a heel and of a rollback. -/
  heelLead : Option HeelLead := none
  rollLead : Option RollLead := none
  /-- The epoch a rollback undid first, and each ring's RESUME_INDEX (R381). -/
  lostEpoch : Nat := 0
  replayIdx : Tbl Nat := []
  /-- The highest epoch number seen (R380). -/
  epochSeen : Nat := 0
  /-- The nodes of the heel group in force; the map's group and pack take effect at the next heel (R69). -/
  grpNodes : List Nat := []
  groupDue : Bool := false
  /-- The epoch has been learned since this module joined its group. -/
  synced  : Bool := false
  /-- Beacons (R379): TMR of the last one from each node, how many in a row it has missed, and TMR of the last timer. -/
  beats   : Tbl Nat := []
  missed  : Tbl Nat := []
  beatAt  : Nat := 0
  /-- Rebuild (R385, R386): pages of ranges not yet rebuilt that have been rebuilt, blocks received by block number, each
  with the position that sent it (no bytes for a poisoned one), and the range this module holds; at the leader, range
  objects handed out, and those kept while a heel is asked for, each with the replacement's node. -/
  rebMine : Option Nat := none
  rebPages : List Nat := []
  rebGot  : Tbl (List (Nat × Bytes)) := []
  rebOut  : List Nat := []
  rebKept : List (Nat × Nat) := []
  /-- The keeper protocol. -/
  kp      : Keep := {}
  /-- TMR of the start of each revocation that drains (R61). -/
  revAt   : Tbl Nat := []
  /-- A module reset (R490): the step to be done next, 0 while none runs, and TMR when the one before it was done. -/
  rstStep : Nat := 0
  rstAt   : Nat := 0
  /-- The RAS_FENCE operation that tests (R496): kind, instance, OP. -/
  fence   : Option (Nat × Nat × Nat) := none
  /-- Domain switches that wait, in the order of their writes: domain, on (R536). -/
  swQ     : List (Nat × Bool) := []
  /-- An orderly power-down (R548): 0 none, 1 it drains, 2 it waits for quiet, 3 it recalls, 9 it waits for the module reset
  or for the end of step 7 of start-up; and TMR when step 2 began. -/
  offStep : Nat := 0
  offAt   : Nat := 0
  /-- Flash metadata: the valid save, and the last committed map applied with the kennel entries of that time. -/
  save    : Option Save := none
  stored  : Option MapRecs := none
  storedKnl : Tbl Nat := []
  deriving DecidableEq, Repr

/-- The links, the CXL port, the root of trust, start-up, power and the sideband (spec/13 to spec/17, spec/19). DESIGN CHOICE (log 16). -/
structure SysSt where
  /-- The SR-IOV VF Enable bit. -/
  vfEnable : Bool := false
  /-- The sideband fault queue (R568), its count of lost records, and the alert mask (R567). -/
  sideQ   : List (List Nat) := []
  sideLost : Nat := 0
  alerts  : Nat := 0
  /-- Links (R443), by number. -/
  lnk     : Tbl LinkSt := []
  /-- The routing mode in force since the last training (R421): 0 HBR, 1 PBR. -/
  cxlMode : Nat := 0
  /-- BI Enable of the BI Decoder Capability (R428). -/
  biEnable : Bool := false
  /-- Committed HDM decoders in commit order, and decoders whose last commit failed (R426). -/
  hdm     : List Hdm := []
  hdmErr  : List Nat := []
  /-- PERST# is asserted (R559). -/
  perst   : Bool := true
  /-- The extent list and its generation number (R431). -/
  extents : List Extent := []
  extGen  : Nat := 0
  /-- The Dynamic Capacity event log, oldest first, the next handle, and the overflow indication (R431). -/
  dcLog   : List DcEvent := []
  dcNext  : Nat := 1
  dcOvf   : Bool := false
  /-- Event Interrupt Policy: the setting of each log, in the order Informational, Warning, Failure, Fatal, DC (R435). -/
  evPolicy : List Nat := [0, 0, 0, 0, 0]
  /-- The CXL timestamp, in nanoseconds, and TMR when it was set (R435). -/
  cxlTime : Option (Nat × Nat) := none
  /-- VFs whose STOP_INTERFACE_REQUEST waits for its quiesce to end (R518). -/
  tdiStop : List Nat := []
  /-- IDE keys programmed and key sets started through IDE_KM (R437): stream * 16 + key set * 8 + direction * 4 +
  sub-stream, and stream * 4 + key set * 2 + direction. -/
  ideKeys : List Nat := []
  ideGo   : List Nat := []
  /-- Fabric link connectors J10 + c whose cable is present (R558). -/
  cables  : List Nat := []
  /-- The module has been powered since manufacture, so its fuses and boot flash are set. -/
  made    : Bool := false
  /-- The update state kept in boot flash (R510): the slot that is ACTIVE, whether the other is PENDING, and the slots that
  hold a valid image. -/
  nvActive : Nat := 0
  nvPending : Bool := false
  nvOk    : List Nat := []
  /-- The root of trust: 0 not in service, 1 in service, 2 in recovery (R511); and the slot it runs from. -/
  rtp     : Nat := 0
  runSlot : Nat := 0
  /-- Measurements 1 to 6 (R517). -/
  meas    : List Bytes := []
  /-- The certificates at positions 0 to 2 (R505), and the alias certificate built at the last boot as a free value. -/
  certs   : List Bytes := []
  alias_  : Nat := 0
  /-- The update claim (R512): the path that holds it (0 mailbox, 1 PLDM) and TMR of its last write. -/
  claim   : Option (Nat × Nat) := none
  /-- SPDM: what has been agreed on each transport (0 nothing, 1 version, 2 capabilities, 3 algorithms), the sessions, and
  the next session identifier. -/
  spdmConn : List Nat := [0, 0]
  sessions : List Sess := []
  sessNext : Nat := 1
  /-- The debug nonce (R529), and the nonce of each locked TDI (R518). -/
  dbgNonce : Option Nat := none
  tdiNonce : Tbl Nat := []
  /-- Start-up (R546): the step to be done next, 0 while none is, and TMR when the one before it was done. -/
  upStep  : Nat := 0
  upAt    : Nat := 0
  /-- PWRGD and THERMTRIP# are asserted (R563). -/
  pwrgd   : Bool := false
  tripped : Bool := false
  /-- The input samples of the last 1 ms, newest first, in mV and mA (R537), and input energy below 1 mJ, in 10 fJ. -/
  inputs  : List (Nat × Nat) := []
  energyRem : Nat := 0
  /-- Margins below their minimum at the last measurement, as kind * 2³² + number (R501). -/
  lowMargins : List Nat := []
  /-- The I3C target's address on the sideband bus, when it has one, and the PLDM terminus identifier and update (R565,
  R566); the MCTP endpoint identifier. -/
  i3cAddr : Option Nat := none
  eid     : Nat := 0
  tid     : Nat := 0
  pldm    : Pldm := {}
  /-- NumVFs of PF0's SR-IOV capability (R434). -/
  numVfs  : Nat := 0
  deriving DecidableEq, Repr

/-- The block apart from the ordering code, the lock, the timer and the queue. DESIGN CHOICE (log 15). -/
structure Dev extends StoreSt, WorkSt, GroupSt, SysSt where
  /-- Register fields that differ from their reset value, by Fld.key. -/
  regs  : Tbl Nat := []
  /-- What the outside has been shown, oldest first. -/
  out   : List Out := []
  deriving DecidableEq, Repr
/-- The machine: the ordering code (R1), SYS_LOCK.LOCK (R8), TMR (R545), the block and the waiting commands. -/
structure State where
  variant : Variant := .s8x4
  lock    : Bool := false
  tmr     : Nat := 0
  dev     : Dev := {}
  /-- Commands waiting, first in first out. -/
  pending : List Instr := []
  deriving DecidableEq, Repr

/-- The machine before its first power-on completes: every register at its reset value. DESIGN CHOICE (log 2, 6, 18). -/
def State.reset : State := {}

end Sys2Proof.Machine
end

