-- ==== Sys2Proof/Machine/Regs.lean ====
section
/-! DEFINITION. Every field of every register of PF0 BAR0, from the field tables of spec/ (the chapter named before
each register), and the table that places the registers (spec/19, R573 to R578). A field is (register number, low bit,
width, access, reset value). A reset value the spec does not give is a named value of a log entry. -/
namespace Sys2Proof.Machine

-- SYS_ID: spec/00
def F.SYS_ID_VENDOR : Fld := ⟨0, 0, 16, .ro, 0⟩  -- DESIGN CHOICE (log 7)
def F.SYS_ID_DEVICE : Fld := ⟨0, 16, 16, .ro, 0x7400⟩
def F.SYS_ID_STEP_LETTER : Fld := ⟨0, 32, 4, .ro, 1⟩  -- DESIGN CHOICE (log 7)
def F.SYS_ID_STEP_DIGIT : Fld := ⟨0, 36, 4, .ro, 0⟩  -- DESIGN CHOICE (log 7)
-- SYS_VARIANT: spec/00
def F.SYS_VARIANT_STACKS : Fld := ⟨1, 0, 4, .ro, 8⟩  -- DESIGN CHOICE (log 7)
def F.SYS_VARIANT_IODIES : Fld := ⟨1, 4, 4, .ro, 4⟩  -- DESIGN CHOICE (log 7)
def F.SYS_VARIANT_IO_STEP_LETTER : Fld := ⟨1, 8, 4, .ro, 1⟩  -- DESIGN CHOICE (log 7)
def F.SYS_VARIANT_IO_STEP_DIGIT : Fld := ⟨1, 12, 4, .ro, 0⟩  -- DESIGN CHOICE (log 7)
def F.SYS_VARIANT_LINKS : Fld := ⟨1, 16, 7, .ro, 0x60⟩  -- DESIGN CHOICE (log 7)
def F.SYS_VARIANT_FLASH_CH : Fld := ⟨1, 23, 6, .ro, 0x20⟩  -- DESIGN CHOICE (log 7)
-- SYS_LOCK: spec/00
def F.SYS_LOCK_LOCK : Fld := ⟨2, 0, 1, .w1s, 0⟩
-- SYS_XSTAT: spec/01
def F.SYS_XSTAT_ACTIVE : Fld := ⟨3, 0, 4, .ro, 0⟩
def F.SYS_XSTAT_PENDING : Fld := ⟨3, 8, 7, .ro, 0⟩
def F.SYS_XSTAT_ARG : Fld := ⟨3, 16, 16, .ro, 0⟩
def F.SYS_XSTAT_DONE_COUNT : Fld := ⟨3, 32, 32, .ro, 0⟩
-- SYS_STRAP: spec/18
def F.SYS_STRAP_SLOTID : Fld := ⟨4, 0, 6, .ro, 0⟩  -- DESIGN CHOICE (log 7)
def F.SYS_STRAP_RECOVERY : Fld := ⟨4, 6, 1, .ro, 0⟩  -- DESIGN CHOICE (log 7)
def F.SYS_STRAP_CBL : Fld := ⟨4, 8, 12, .ro, 0⟩  -- DESIGN CHOICE (log 7)
def F.SYS_STRAP_CXLCBL : Fld := ⟨4, 20, 1, .ro, 0⟩  -- DESIGN CHOICE (log 7)
-- PWR_SEQ: spec/17
def F.PWR_SEQ_PHASE : Fld := ⟨5, 0, 4, .ro, 0⟩
def F.PWR_SEQ_SAVED : Fld := ⟨5, 4, 1, .ro, 0⟩
def F.PWR_SEQ_VWARN : Fld := ⟨5, 5, 1, .ro, 0⟩
def F.PWR_SEQ_OFFCAUSE : Fld := ⟨5, 6, 3, .ro, 0⟩  -- DESIGN CHOICE (log 7)
def F.PWR_SEQ_READY_MS : Fld := ⟨5, 16, 32, .ro, 0⟩
-- PWR_OFFREQ: spec/17
def F.PWR_OFFREQ_GO : Fld := ⟨6, 0, 1, .wo, 0⟩
-- PWR_CAP: spec/17
def F.PWR_CAP_LIMIT : Fld := ⟨7, 0, 12, .rw, 0x47e⟩  -- DESIGN CHOICE (log 7)
def F.PWR_CAP_DUTY : Fld := ⟨7, 16, 7, .ro, 0x40⟩
def F.PWR_CAP_THERMAL : Fld := ⟨7, 23, 1, .ro, 0⟩
-- PWR_THR: spec/17
def F.PWR_THR_CAPPED_US : Fld := ⟨8, 0, 32, .rc, 0⟩
def F.PWR_THR_THERMAL_US : Fld := ⟨8, 32, 32, .rc, 0⟩
-- PWR_IN: spec/17
def F.PWR_IN_VOLT : Fld := ⟨9, 0, 16, .ro, 0⟩
def F.PWR_IN_CURR : Fld := ⟨9, 16, 16, .ro, 0⟩
def F.PWR_IN_POWER : Fld := ⟨9, 32, 16, .ro, 0⟩
-- PWR_ENERGY: spec/17
def F.PWR_ENERGY_MJ : Fld := ⟨10, 0, 64, .ro, 0⟩
-- PWR_TEMP: spec/17
def F.PWR_TEMP_TEMP : Fld := ⟨11, 0, 16, .ro, 0⟩
def F.PWR_TEMP_MAX : Fld := ⟨11, 16, 16, .ro, 0⟩
def F.PWR_TEMP_VALID : Fld := ⟨11, 32, 1, .ro, 0⟩
-- PWR_DCTL: spec/17
def F.PWR_DCTL_REQ : Fld := ⟨12, 0, 1, .rw, 1⟩
def F.PWR_DCTL_STATE : Fld := ⟨12, 1, 2, .ro, 0⟩
def F.PWR_DCTL_ERR : Fld := ⟨12, 3, 2, .ro, 0⟩
-- CLK_SPREAD: spec/17
def F.CLK_SPREAD_EN : Fld := ⟨13, 0, 1, .rwl, 1⟩
def F.CLK_SPREAD_DEPTH : Fld := ⟨13, 1, 2, .rwl, 3⟩
-- CLK_STAT: spec/17
def F.CLK_STAT_LOCK : Fld := ⟨14, 0, 20, .ro, 0⟩
def F.CLK_STAT_LOSTLOCK : Fld := ⟨14, 32, 16, .rc, 0⟩
-- TMR_NOW: spec/17
def F.TMR_NOW_TICKS : Fld := ⟨15, 0, 64, .ro, 0⟩
-- RAS_CFG: spec/15
def F.RAS_CFG_RINGWD : Fld := ⟨16, 0, 16, .rwl, 0x7d0⟩
def F.RAS_CFG_MAXRST : Fld := ⟨16, 16, 4, .rwl, 3⟩
-- RAS_TMO: spec/15
def F.RAS_TMO_FABRIC : Fld := ⟨17, 0, 16, .rwl, 0x32⟩
-- RAS_STAT: spec/15
def F.RAS_STAT_MSTATE : Fld := ⟨18, 0, 2, .ro, 0⟩
def F.RAS_STAT_CAUSE : Fld := ⟨18, 2, 4, .ro, 0⟩
def F.RAS_STAT_ABSORBED : Fld := ⟨18, 8, 8, .rc, 0⟩
def F.RAS_STAT_RESETS : Fld := ⟨18, 16, 32, .ro, 0⟩
def F.RAS_STAT_LAST_MS : Fld := ⟨18, 48, 16, .ro, 0⟩
-- RAS_RESET: spec/15
def F.RAS_RESET_GO : Fld := ⟨19, 0, 1, .wo, 0⟩
-- RAS_FENCE: spec/15
def F.RAS_FENCE_KIND : Fld := ⟨20, 0, 3, .rw, 0⟩
def F.RAS_FENCE_INSTANCE : Fld := ⟨20, 3, 7, .rw, 0⟩
def F.RAS_FENCE_OP : Fld := ⟨20, 10, 2, .wo, 0⟩
def F.RAS_FENCE_BUSY : Fld := ⟨20, 12, 1, .ro, 0⟩
def F.RAS_FENCE_RESULT : Fld := ⟨20, 13, 3, .ro, 0⟩
-- RAS_FMASK: spec/15
def F.RAS_FMASK_BAYS : Fld := ⟨21, 0, 32, .ro, 0⟩
def F.RAS_FMASK_SLICES : Fld := ⟨21, 32, 16, .ro, 0⟩
def F.RAS_FMASK_WALKERS : Fld := ⟨21, 48, 4, .ro, 0⟩
def F.RAS_FMASK_CLUSTERS : Fld := ⟨21, 52, 8, .ro, 0⟩
-- RAS_FLMASK: spec/15
def F.RAS_FLMASK_FLASH : Fld := ⟨22, 0, 32, .ro, 0⟩
-- RAS_MCFG: spec/15
def F.RAS_MCFG_PERIOD : Fld := ⟨23, 0, 16, .rw, 0x3c⟩
def F.RAS_MCFG_EYE_MIN : Fld := ⟨23, 16, 8, .rw, 0x14⟩
def F.RAS_MCFG_DRAM_MIN : Fld := ⟨23, 24, 8, .rw, 0x1e⟩
def F.RAS_MCFG_V_MIN : Fld := ⟨23, 32, 8, .rw, 0xf⟩
-- RAS_LKCFG: spec/15
def F.RAS_LKCFG_THRESH : Fld := ⟨24, 0, 8, .rwl, 0x10⟩
def F.RAS_LKCFG_WINDOW : Fld := ⟨24, 8, 16, .rwl, 0x3e8⟩
-- RAS_CNT: spec/15
def F.RAS_CNT_CORR : Fld := ⟨25, 0, 32, .rc, 0⟩
def F.RAS_CNT_UNCORR : Fld := ⟨25, 32, 16, .rc, 0⟩
def F.RAS_CNT_RETIRED : Fld := ⟨25, 48, 16, .ro, 0⟩
-- RAS_LEYE: spec/15
def F.RAS_LEYE_HEIGHT : Fld := ⟨26, 0, 16, .ro, 0⟩
def F.RAS_LEYE_WIDTH : Fld := ⟨26, 16, 16, .ro, 0⟩
def F.RAS_LEYE_LANE : Fld := ⟨26, 32, 1, .ro, 0⟩
-- RAS_DMARG: spec/15
def F.RAS_DMARG_READ : Fld := ⟨27, 0, 16, .ro, 0⟩
def F.RAS_DMARG_WRITE : Fld := ⟨27, 16, 16, .ro, 0⟩
-- RAS_VMARG: spec/15
def F.RAS_VMARG_VOLT : Fld := ⟨28, 0, 16, .ro, 0⟩
def F.RAS_VMARG_MARGIN : Fld := ⟨28, 16, 16, .ro, 0⟩
-- SEC_MBCMD: spec/16
def F.SEC_MBCMD_OPCODE : Fld := ⟨29, 0, 8, .rw, 0⟩
def F.SEC_MBCMD_LENGTH : Fld := ⟨29, 8, 13, .rw, 0⟩
def F.SEC_MBCMD_GO : Fld := ⟨29, 21, 1, .wo, 0⟩
def F.SEC_MBCMD_ARG : Fld := ⟨29, 32, 32, .rw, 0⟩
-- SEC_MBSTAT: spec/16
def F.SEC_MBSTAT_BUSY : Fld := ⟨30, 0, 1, .ro, 0⟩
def F.SEC_MBSTAT_STATUS : Fld := ⟨30, 8, 8, .ro, 0⟩
def F.SEC_MBSTAT_RLEN : Fld := ⟨30, 16, 13, .ro, 0⟩
-- SEC_FWSTAT: spec/16
def F.SEC_FWSTAT_ACTIVE : Fld := ⟨31, 0, 1, .ro, 0⟩  -- DESIGN CHOICE (log 7)
def F.SEC_FWSTAT_PENDING : Fld := ⟨31, 1, 1, .ro, 0⟩  -- DESIGN CHOICE (log 7)
def F.SEC_FWSTAT_TRIAL : Fld := ⟨31, 2, 1, .ro, 0⟩  -- DESIGN CHOICE (log 7)
def F.SEC_FWSTAT_OTHER_OK : Fld := ⟨31, 3, 1, .ro, 0⟩  -- DESIGN CHOICE (log 7)
def F.SEC_FWSTAT_ERR : Fld := ⟨31, 4, 4, .ro, 0⟩
def F.SEC_FWSTAT_VERSION : Fld := ⟨31, 8, 32, .ro, 0⟩  -- DESIGN CHOICE (log 7)
-- SEC_SVN: spec/16
def F.SEC_SVN_RUNNING : Fld := ⟨32, 0, 64, .ro, 0⟩  -- DESIGN CHOICE (log 7)
-- SEC_FUSE: spec/16
def F.SEC_FUSE_FUSED : Fld := ⟨33, 0, 7, .ro, 0⟩  -- DESIGN CHOICE (log 7)
def F.SEC_FUSE_PROD : Fld := ⟨33, 7, 1, .ro, 0⟩  -- DESIGN CHOICE (log 7)
def F.SEC_FUSE_EREVOKE : Fld := ⟨33, 8, 4, .ro, 0⟩  -- DESIGN CHOICE (log 7)
def F.SEC_FUSE_LREVOKE : Fld := ⟨33, 12, 4, .ro, 0⟩  -- DESIGN CHOICE (log 7)
-- SEC_DBG: spec/16
def F.SEC_DBG_STATE : Fld := ⟨34, 0, 2, .ro, 0⟩
def F.SEC_DBG_KEYS_GONE : Fld := ⟨34, 2, 1, .ro, 0⟩
-- SEC_SESS: spec/16
def F.SEC_SESS_DOE : Fld := ⟨35, 0, 3, .ro, 0⟩
def F.SEC_SESS_MCTP : Fld := ⟨35, 3, 3, .ro, 0⟩
def F.SEC_SESS_ENDED : Fld := ⟨35, 32, 32, .rc, 0⟩
-- SEC_LKFAIL: spec/16
def F.SEC_LKFAIL_CHAIN : Fld := ⟨36, 0, 16, .rc, 0⟩
def F.SEC_LKFAIL_SIG : Fld := ⟨36, 16, 16, .rc, 0⟩
def F.SEC_LKFAIL_DEBUG : Fld := ⟨36, 32, 16, .rc, 0⟩
-- SEC_MBDATA: spec/16
def F.SEC_MBDATA_WORD : Fld := ⟨37, 0, 64, .rw, 0⟩
-- SEC_TDI: spec/16
def F.SEC_TDI_STATE : Fld := ⟨38, 0, 2, .ro, 0⟩
def F.SEC_TDI_ECAUSE : Fld := ⟨38, 4, 4, .ro, 0⟩
def F.SEC_TDI_STREAM : Fld := ⟨38, 8, 2, .ro, 0⟩
-- SHP_CTL: spec/06
def F.SHP_CTL_TRACE_THR : Fld := ⟨39, 0, 8, .rw, 0⟩
def F.SHP_CTL_TRACE_EN : Fld := ⟨39, 8, 1, .rw, 0⟩
def F.SHP_CTL_TRACE_STOP : Fld := ⟨39, 9, 1, .rw, 0⟩
-- SHP_STAT: spec/06
def F.SHP_STAT_BUSY : Fld := ⟨40, 0, 8, .ro, 0⟩
def F.SHP_STAT_QDEPTH : Fld := ⟨40, 8, 6, .ro, 0⟩
def F.SHP_STAT_USABLE : Fld := ⟨40, 14, 1, .ro, 0⟩
-- SHP_STEPS: spec/06
def F.SHP_STEPS_COUNT : Fld := ⟨41, 0, 64, .ro, 0⟩
-- SHP_CYCLE: spec/06
def F.SHP_CYCLE_CYCLE : Fld := ⟨42, 0, 48, .ro, 0⟩
-- SHP_WDOG: spec/06
def F.SHP_WDOG_EXPIRED : Fld := ⟨43, 0, 16, .rc, 0⟩
-- SHP_TRPTR: spec/06
def F.SHP_TRPTR_NEXT : Fld := ⟨44, 0, 10, .ro, 0⟩
def F.SHP_TRPTR_WRAPPED : Fld := ⟨44, 10, 1, .ro, 0⟩
def F.SHP_TRPTR_STOPPED : Fld := ⟨44, 11, 1, .ro, 0⟩
-- SHP_THR: spec/06
def F.SHP_THR_STATE : Fld := ⟨45, 0, 3, .ro, 0⟩
def F.SHP_THR_STEP : Fld := ⟨45, 8, 16, .ro, 0⟩
def F.SHP_THR_OPCODE : Fld := ⟨45, 24, 8, .ro, 0⟩
def F.SHP_THR_DINDEX : Fld := ⟨45, 32, 32, .ro, 0⟩
-- SHP_CLSTAT: spec/06
def F.SHP_CLSTAT_LOADED : Fld := ⟨46, 0, 1, .ro, 0⟩
def F.SHP_CLSTAT_TABLE_ID : Fld := ⟨46, 32, 32, .ro, 0⟩
-- SHP_TPROBE: spec/06
def F.SHP_TPROBE_CLUSTER : Fld := ⟨47, 0, 3, .rw, 0⟩
def F.SHP_TPROBE_SLOT : Fld := ⟨47, 16, 14, .rw, 0⟩
-- SHP_TDATA0: spec/06
def F.SHP_TDATA0_WORD0 : Fld := ⟨48, 0, 64, .ro, 0⟩
-- SHP_TDATA1: spec/06
def F.SHP_TDATA1_WORD1 : Fld := ⟨49, 0, 64, .ro, 0⟩
-- PTR_STAT: spec/03
def F.PTR_STAT_ENTRIES : Fld := ⟨50, 0, 18, .ro, 0⟩
def F.PTR_STAT_VICTIMS : Fld := ⟨50, 18, 7, .ro, 0⟩
def F.PTR_STAT_TRACKERS : Fld := ⟨50, 25, 11, .ro, 0⟩
def F.PTR_STAT_ABUF : Fld := ⟨50, 36, 7, .ro, 0⟩
-- PTR_EVICT: spec/03
def F.PTR_EVICT_COUNT : Fld := ⟨51, 0, 32, .rc, 0⟩
-- PTR_MCAST: spec/03
def F.PTR_MCAST_COUNT : Fld := ⟨52, 0, 32, .rc, 0⟩
-- PTR_STALE: spec/03
def F.PTR_STALE_COUNT : Fld := ⟨53, 0, 32, .rc, 0⟩
-- PTR_ASEQ: spec/03
def F.PTR_ASEQ_COUNT : Fld := ⟨54, 0, 64, .ro, 0⟩
-- PTR_POISON: spec/03
def F.PTR_POISON_MARKED : Fld := ⟨55, 0, 32, .rc, 0⟩
def F.PTR_POISON_DROPPED : Fld := ⟨55, 32, 32, .rc, 0⟩
-- PTR_PROBE: spec/03
def F.PTR_PROBE_SET : Fld := ⟨56, 0, 13, .rw, 0⟩
def F.PTR_PROBE_WAY : Fld := ⟨56, 13, 4, .rw, 0⟩
-- PTR_PDATA0: spec/03
def F.PTR_PDATA0_WORD0 : Fld := ⟨57, 0, 64, .ro, 0⟩
-- PTR_PDATA1: spec/03
def F.PTR_PDATA1_WORD1 : Fld := ⟨58, 0, 64, .ro, 0⟩
-- PTR_SGRP: spec/03
def F.PTR_SGRP_MCGROUP : Fld := ⟨59, 0, 14, .ro, 0⟩
def F.PTR_SGRP_MCVALID : Fld := ⟨59, 14, 1, .ro, 0⟩
def F.PTR_SGRP_MEMBERS : Fld := ⟨59, 16, 14, .ro, 0⟩
-- XLT_CFG: spec/04
def F.XLT_CFG_SCENT_DEPTH : Fld := ⟨60, 0, 4, .rwl, 8⟩
def F.XLT_CFG_TILE_FILL : Fld := ⟨60, 4, 1, .rwl, 1⟩
-- XLT_STAT: spec/04
def F.XLT_STAT_WALKS : Fld := ⟨61, 0, 7, .ro, 0⟩
def F.XLT_STAT_INV_PHASE : Fld := ⟨61, 8, 2, .ro, 0⟩
def F.XLT_STAT_OLD_COUNT : Fld := ⟨61, 16, 32, .ro, 0⟩
-- XLT_GEN: spec/04
def F.XLT_GEN_GEN : Fld := ⟨62, 0, 64, .ro, 0⟩
-- XLT_MISS: spec/04
def F.XLT_MISS_BAY : Fld := ⟨63, 0, 32, .rc, 0⟩
def F.XLT_MISS_WALK : Fld := ⟨63, 32, 32, .rc, 0⟩
-- XLT_SCENT: spec/04
def F.XLT_SCENT_WALKS : Fld := ⟨64, 0, 32, .rc, 0⟩
def F.XLT_SCENT_USED : Fld := ⟨64, 32, 32, .rc, 0⟩
-- XLT_WBASE: spec/04
def F.XLT_WBASE_BASE : Fld := ⟨65, 12, 35, .rw, 0⟩
-- XLT_WCTL: spec/04
def F.XLT_WCTL_SIZE : Fld := ⟨66, 0, 25, .rw, 0⟩
def F.XLT_WCTL_COLLAR : Fld := ⟨66, 25, 10, .rw, 0⟩
def F.XLT_WCTL_R : Fld := ⟨66, 35, 1, .rw, 0⟩
def F.XLT_WCTL_W : Fld := ⟨66, 36, 1, .rw, 0⟩
def F.XLT_WCTL_A : Fld := ⟨66, 37, 1, .rw, 0⟩
def F.XLT_WCTL_SRCMODE : Fld := ⟨66, 38, 1, .rw, 0⟩
def F.XLT_WCTL_SRCNODE : Fld := ⟨66, 39, 14, .rw, 0⟩
def F.XLT_WCTL_ST : Fld := ⟨66, 54, 2, .ro, 0⟩
def F.XLT_WCTL_OPEN : Fld := ⟨66, 56, 1, .wo, 0⟩
def F.XLT_WCTL_ERR : Fld := ⟨66, 57, 3, .ro, 0⟩
-- XLT_WINFLT: spec/04
def F.XLT_WINFLT_COUNT : Fld := ⟨67, 0, 32, .ro, 0⟩
-- XLT_WREJ: spec/04
def F.XLT_WREJ_COUNT : Fld := ⟨68, 0, 32, .rc, 0⟩
-- RNG_BIND: spec/05
def F.RNG_BIND_COLLAR : Fld := ⟨69, 0, 10, .rw, 0⟩
def F.RNG_BIND_LGROUP : Fld := ⟨69, 10, 3, .rw, 0⟩
def F.RNG_BIND_BOUND : Fld := ⟨69, 13, 1, .rw, 0⟩
def F.RNG_BIND_ERR : Fld := ⟨69, 14, 1, .ro, 0⟩
-- RNG_CTL: spec/05
def F.RNG_CTL_EN : Fld := ⟨70, 0, 1, .rw, 0⟩
def F.RNG_CTL_STATE : Fld := ⟨70, 1, 3, .ro, 0⟩
def F.RNG_CTL_PLACE : Fld := ⟨70, 4, 1, .rw, 0⟩
def F.RNG_CTL_CPLACE : Fld := ⟨70, 5, 1, .rw, 0⟩
def F.RNG_CTL_SIZE : Fld := ⟨70, 6, 5, .rw, 6⟩
def F.RNG_CTL_CSIZE : Fld := ⟨70, 11, 5, .rw, 6⟩
def F.RNG_CTL_SERVICE : Fld := ⟨70, 16, 3, .rw, 0⟩
def F.RNG_CTL_ERR : Fld := ⟨70, 20, 4, .ro, 0⟩
-- RNG_DBASE: spec/05
def F.RNG_DBASE_ADDR : Fld := ⟨71, 12, 52, .rw, 0⟩
-- RNG_CBASE: spec/05
def F.RNG_CBASE_ADDR : Fld := ⟨72, 12, 52, .rw, 0⟩
-- RNG_BAYS: spec/05
def F.RNG_BAYS_MASK : Fld := ⟨73, 0, 32, .rw, 0xffffffff⟩
-- RNG_PTR: spec/05
def F.RNG_PTR_FETCH : Fld := ⟨74, 0, 32, .ro, 0⟩
def F.RNG_PTR_TAIL : Fld := ⟨74, 32, 32, .ro, 0⟩
-- RNG_CPTR: spec/05
def F.RNG_CPTR_CTAIL : Fld := ⟨75, 0, 32, .ro, 0⟩
def F.RNG_CPTR_CHEAD : Fld := ⟨75, 32, 32, .ro, 0⟩
-- RNG_IRQ: spec/05
def F.RNG_IRQ_EN : Fld := ⟨76, 0, 1, .rw, 0⟩
def F.RNG_IRQ_VECTOR : Fld := ⟨76, 1, 6, .rw, 0⟩
def F.RNG_IRQ_MAXCNT : Fld := ⟨76, 8, 8, .rw, 1⟩
def F.RNG_IRQ_MAXTIME : Fld := ⟨76, 16, 16, .rw, 0⟩
-- RNG_HOLD: spec/05
def F.RNG_HOLD_HOLD : Fld := ⟨77, 0, 9, .ro, 0⟩
def F.RNG_HOLD_OUTSTANDING : Fld := ⟨77, 32, 17, .ro, 0⟩
-- RNG_CNT: spec/05
def F.RNG_CNT_DONE : Fld := ⟨78, 0, 32, .rc, 0⟩
def F.RNG_CNT_DB_BAD : Fld := ⟨78, 32, 16, .rc, 0⟩
def F.RNG_CNT_DB_DROP : Fld := ⟨78, 48, 16, .rc, 0⟩
-- FN_CTL: spec/12
def F.FN_CTL_EN : Fld := ⟨79, 0, 1, .rw, 0⟩
def F.FN_CTL_FLR : Fld := ⟨79, 1, 1, .wo, 0⟩
def F.FN_CTL_XCLASS : Fld := ⟨79, 2, 3, .rw, 0⟩
def F.FN_CTL_ERR : Fld := ⟨79, 8, 2, .ro, 0⟩
-- FN_STAT: spec/12
def F.FN_STAT_STATE : Fld := ⟨80, 0, 2, .ro, 0⟩
def F.FN_STAT_PENDING_ENABLE : Fld := ⟨80, 2, 1, .ro, 0⟩
def F.FN_STAT_CAUSE : Fld := ⟨80, 3, 2, .ro, 0⟩
def F.FN_STAT_HOSTDISC : Fld := ⟨80, 5, 1, .ro, 0⟩
def F.FN_STAT_MAPPED : Fld := ⟨80, 6, 1, .ro, 0⟩
def F.FN_STAT_RINGS : Fld := ⟨80, 8, 7, .ro, 0⟩
def F.FN_STAT_OUTST : Fld := ⟨80, 16, 32, .ro, 0⟩
-- FN_VEC: spec/12
def F.FN_VEC_BASE : Fld := ⟨81, 0, 13, .rw, 0⟩
def F.FN_VEC_COUNT : Fld := ⟨81, 16, 7, .rw, 0⟩
-- FN_IRQF: spec/12
def F.FN_IRQF_FABRIC : Fld := ⟨82, 0, 64, .rw, 0⟩
-- FN_ICNT: spec/12
def F.FN_ICNT_SENT : Fld := ⟨83, 0, 32, .rc, 0⟩
def F.FN_ICNT_DROPPED : Fld := ⟨83, 32, 16, .rc, 0⟩
def F.FN_ICNT_CANCELLED : Fld := ⟨83, 48, 16, .rc, 0⟩
-- FN_FRBASE: spec/05
def F.FN_FRBASE_ADDR : Fld := ⟨84, 12, 52, .rw, 0⟩
-- FN_FRCTL: spec/05
def F.FN_FRCTL_EN : Fld := ⟨85, 0, 1, .rw, 0⟩
def F.FN_FRCTL_PLACE : Fld := ⟨85, 1, 1, .rw, 0⟩
def F.FN_FRCTL_SIZE : Fld := ⟨85, 2, 4, .rw, 4⟩
def F.FN_FRCTL_VECTOR : Fld := ⟨85, 6, 6, .rw, 0⟩
-- FN_FRPTR: spec/05
def F.FN_FRPTR_FTAIL : Fld := ⟨86, 0, 32, .ro, 0⟩
def F.FN_FRPTR_FHEAD : Fld := ⟨86, 32, 32, .ro, 0⟩
-- FN_FROVF: spec/05
def F.FN_FROVF_LOST : Fld := ⟨87, 0, 32, .ro, 0⟩
def F.FN_FROVF_FH_BAD : Fld := ⟨87, 32, 16, .rc, 0⟩
def F.FN_FROVF_FH_DROP : Fld := ⟨87, 48, 16, .rc, 0⟩
-- FN_XLT_ROOT: spec/04
def F.FN_XLT_ROOT_EN : Fld := ⟨88, 0, 1, .rw, 0⟩
def F.FN_XLT_ROOT_LEVELS : Fld := ⟨88, 1, 1, .rw, 0⟩
def F.FN_XLT_ROOT_ROOT : Fld := ⟨88, 12, 35, .rw, 0⟩
-- LSH_CFG: spec/12
def F.LSH_CFG_OPCOST : Fld := ⟨89, 0, 16, .rwl, 0x10⟩
-- LSHF_RATE: spec/12
def F.LSHF_RATE_RATE : Fld := ⟨90, 0, 32, .rw, 0⟩
def F.LSHF_RATE_BURST : Fld := ⟨90, 32, 24, .rw, 0x4000⟩
def F.LSHF_RATE_UNLIM : Fld := ⟨90, 63, 1, .rw, 1⟩
-- LSHF_WGT: spec/12
def F.LSHF_WGT_WEIGHT : Fld := ⟨91, 0, 16, .rw, 0x40⟩
-- LSHF_TOK: spec/12
def F.LSHF_TOK_BAL : Fld := ⟨92, 0, 48, .ro, 0⟩
def F.LSHF_TOK_FRAC : Fld := ⟨92, 48, 8, .ro, 0⟩
-- LSHF_BYTES: spec/12
def F.LSHF_BYTES_BYTES : Fld := ⟨93, 0, 64, .rc, 0⟩
-- LSHF_OPS: spec/12
def F.LSHF_OPS_GRANTS : Fld := ⟨94, 0, 32, .rc, 0⟩
def F.LSHF_OPS_HELD : Fld := ⟨94, 32, 32, .rc, 0⟩
-- LSHS_RATE: spec/12
def F.LSHS_RATE_RATE : Fld := ⟨95, 0, 32, .rw, 0⟩
def F.LSHS_RATE_BURST : Fld := ⟨95, 32, 24, .rw, 0x4000⟩
def F.LSHS_RATE_UNLIM : Fld := ⟨95, 63, 1, .rw, 1⟩
-- LSHS_WGT: spec/12
def F.LSHS_WGT_WEIGHT : Fld := ⟨96, 0, 16, .rw, 0x40⟩
-- LSHS_TOK: spec/12
def F.LSHS_TOK_BAL : Fld := ⟨97, 0, 48, .ro, 0⟩
def F.LSHS_TOK_FRAC : Fld := ⟨97, 48, 8, .ro, 0⟩
-- LSHS_BYTES: spec/12
def F.LSHS_BYTES_BYTES : Fld := ⟨98, 0, 64, .rc, 0⟩
-- LSHS_OPS: spec/12
def F.LSHS_OPS_GRANTS : Fld := ⟨99, 0, 32, .rc, 0⟩
def F.LSHS_OPS_HELD : Fld := ⟨99, 32, 32, .rc, 0⟩
-- LSHP_RATE: spec/12
def F.LSHP_RATE_RATE : Fld := ⟨100, 0, 32, .rw, 0⟩
def F.LSHP_RATE_BURST : Fld := ⟨100, 32, 24, .rw, 0x4000⟩
def F.LSHP_RATE_UNLIM : Fld := ⟨100, 63, 1, .rw, 1⟩
-- LSHP_WGT: spec/12
def F.LSHP_WGT_WEIGHT : Fld := ⟨101, 0, 16, .rw, 0x40⟩
-- LSHP_TOK: spec/12
def F.LSHP_TOK_BAL : Fld := ⟨102, 0, 48, .ro, 0⟩
def F.LSHP_TOK_FRAC : Fld := ⟨102, 48, 8, .ro, 0⟩
-- LSHP_BYTES: spec/12
def F.LSHP_BYTES_BYTES : Fld := ⟨103, 0, 64, .rc, 0⟩
-- LSHP_OPS: spec/12
def F.LSHP_OPS_GRANTS : Fld := ⟨104, 0, 32, .rc, 0⟩
def F.LSHP_OPS_HELD : Fld := ⟨104, 32, 32, .rc, 0⟩
-- LSH_PMOD: spec/12
def F.LSH_PMOD_MODW : Fld := ⟨105, 0, 16, .rw, 0x100⟩
-- KNL_RANGE: spec/02
def F.KNL_RANGE_BASE : Fld := ⟨106, 0, 17, .ro, 0⟩
def F.KNL_RANGE_SIZE : Fld := ⟨106, 32, 18, .ro, 0⟩
-- KNL_BIND: spec/02
def F.KNL_BIND_COLLAR : Fld := ⟨107, 0, 10, .ro, 0⟩
def F.KNL_BIND_STATE : Fld := ⟨107, 10, 2, .ro, 0⟩
def F.KNL_BIND_PHASE : Fld := ⟨107, 12, 1, .ro, 0⟩
def F.KNL_BIND_HOSTEXT : Fld := ⟨107, 13, 1, .ro, 0⟩
def F.KNL_BIND_DCREGION : Fld := ⟨107, 14, 3, .ro, 0⟩
def F.KNL_BIND_EPOCH : Fld := ⟨107, 32, 32, .ro, 0⟩
-- KNL_INFLT: spec/02
def F.KNL_INFLT_COUNT : Fld := ⟨108, 0, 32, .ro, 0⟩
-- KNL_REJECT: spec/02
def F.KNL_REJECT_COUNT : Fld := ⟨109, 0, 32, .rc, 0⟩
-- TIR_REGION: spec/10
def F.TIR_REGION_UNDO : Fld := ⟨110, 0, 10, .rwl, 0x20⟩  -- DESIGN CHOICE (log 7)
def F.TIR_REGION_SHADOW : Fld := ⟨110, 10, 10, .rwl, 0x20⟩  -- DESIGN CHOICE (log 7)
def F.TIR_REGION_PINNED : Fld := ⟨110, 20, 10, .rwl, 0x100⟩  -- DESIGN CHOICE (log 7)
def F.TIR_REGION_LC : Fld := ⟨110, 30, 10, .ro, 0xb7⟩  -- DESIGN CHOICE (log 7)
def F.TIR_REGION_META : Fld := ⟨110, 40, 4, .ro, 9⟩  -- DESIGN CHOICE (log 7)
-- TIR_CTL: spec/10
def F.TIR_CTL_EN : Fld := ⟨111, 0, 1, .rwl, 0⟩
def F.TIR_CTL_ERR : Fld := ⟨111, 1, 2, .ro, 0⟩
def F.TIR_CTL_QERR : Fld := ⟨111, 3, 1, .w1c, 0⟩
def F.TIR_CTL_DIRTY_HI : Fld := ⟨111, 4, 7, .rwl, 0x32⟩
-- TIR_DLCFG: spec/10
def F.TIR_DLCFG_BASE : Fld := ⟨112, 0, 16, .rwl, 0x50⟩
def F.TIR_DLCFG_PER : Fld := ⟨112, 16, 16, .rwl, 0x500⟩
-- TIR_OCC: spec/10
def F.TIR_OCC_VALID : Fld := ⟨113, 0, 28, .ro, 0⟩
def F.TIR_OCC_DIRTY : Fld := ⟨113, 28, 28, .ro, 0⟩
-- TIR_RET: spec/10
def F.TIR_RET_RETIRED : Fld := ⟨114, 0, 17, .ro, 0⟩
def F.TIR_RET_LIMIT : Fld := ⟨114, 17, 1, .ro, 0⟩
-- TIR_TT: spec/10
def F.TIR_TT_PINNED : Fld := ⟨115, 0, 15, .ro, 0⟩
def F.TIR_TT_SHADOW : Fld := ⟨115, 15, 15, .ro, 0⟩
-- TIR_KPIN: spec/10
def F.TIR_KPIN_QUOTA : Fld := ⟨116, 0, 24, .rw, 0⟩
def F.TIR_KPIN_USE : Fld := ⟨116, 32, 24, .ro, 0⟩
-- TIR_KLC: spec/10
def F.TIR_KLC_SHARE : Fld := ⟨117, 0, 24, .rw, 0⟩
def F.TIR_KLC_USE : Fld := ⟨117, 32, 28, .ro, 0⟩
-- TIR_KSHD: spec/10
def F.TIR_KSHD_QUOTA : Fld := ⟨118, 0, 24, .rw, 0⟩
def F.TIR_KSHD_USE : Fld := ⟨118, 32, 24, .ro, 0⟩
-- TIR_KUNDO: spec/10
def F.TIR_KUNDO_QUOTA : Fld := ⟨119, 0, 24, .rw, 0⟩
def F.TIR_KUNDO_USE : Fld := ⟨119, 32, 28, .ro, 0⟩
-- TIR_KFRATE: spec/10
def F.TIR_KFRATE_RATE : Fld := ⟨120, 0, 32, .rw, 0⟩
def F.TIR_KFRATE_BURST : Fld := ⟨120, 32, 32, .rw, 0⟩
-- TIR_KFBAL: spec/10
def F.TIR_KFBAL_BALANCE : Fld := ⟨121, 0, 64, .ro, 0⟩
-- TIR_KFPROG: spec/10
def F.TIR_KFPROG_PROGRAMMED : Fld := ⟨122, 0, 64, .rc, 0⟩
-- EPC_CFG: spec/11
def F.EPC_CFG_HEELFN : Fld := ⟨123, 0, 10, .rw, 0⟩
def F.EPC_CFG_UNDO_HI : Fld := ⟨123, 10, 7, .rw, 0x4b⟩
def F.EPC_CFG_RESERVE : Fld := ⟨123, 20, 4, .rwl, 2⟩
def F.EPC_CFG_LOSS_TIME : Fld := ⟨123, 32, 16, .rw, 0x2710⟩
-- EPC_EPOCH: spec/11
def F.EPC_EPOCH_EPOCH : Fld := ⟨124, 0, 48, .ro, 0⟩
def F.EPC_EPOCH_WAIT : Fld := ⟨124, 48, 1, .ro, 0⟩
-- EPC_LAST: spec/11
def F.EPC_LAST_LAST : Fld := ⟨125, 0, 48, .ro, 0⟩
-- EPC_STAT: spec/11
def F.EPC_STAT_PHASE : Fld := ⟨126, 0, 4, .ro, 0⟩
def F.EPC_STAT_LEADER : Fld := ⟨126, 4, 1, .ro, 0⟩
def F.EPC_STAT_INGROUP : Fld := ⟨126, 5, 1, .ro, 0⟩
def F.EPC_STAT_LEADER_NODE : Fld := ⟨126, 8, 14, .ro, 0⟩
def F.EPC_STAT_CAUSE : Fld := ⟨126, 24, 3, .ro, 0⟩
-- EPC_CNT: spec/11
def F.EPC_CNT_HEELS : Fld := ⟨127, 0, 32, .rc, 0⟩
def F.EPC_CNT_ROLLBACKS : Fld := ⟨127, 32, 16, .rc, 0⟩
def F.EPC_CNT_FORCED : Fld := ⟨127, 48, 16, .rc, 0⟩
-- EPC_UNDO: spec/11
def F.EPC_UNDO_PAGES : Fld := ⟨128, 0, 28, .ro, 0⟩
def F.EPC_UNDO_RESERVE_USE : Fld := ⟨128, 28, 28, .ro, 0⟩
-- PAK_CFG: spec/11
def F.PAK_CFG_PACK : Fld := ⟨129, 0, 16, .ro, 0⟩
def F.PAK_CFG_K : Fld := ⟨129, 16, 4, .ro, 0⟩
def F.PAK_CFG_POS : Fld := ⟨129, 20, 4, .ro, 0⟩
def F.PAK_CFG_VALID : Fld := ⟨129, 24, 1, .ro, 0⟩
-- PAK_STAT: spec/11
def F.PAK_STAT_STATE : Fld := ⟨130, 0, 3, .ro, 0⟩
def F.PAK_STAT_LOST_A : Fld := ⟨130, 4, 4, .ro, 0⟩
def F.PAK_STAT_LOST_AV : Fld := ⟨130, 8, 1, .ro, 0⟩
def F.PAK_STAT_LOST_B : Fld := ⟨130, 9, 4, .ro, 0⟩
def F.PAK_STAT_LOST_BV : Fld := ⟨130, 13, 1, .ro, 0⟩
-- PAK_DELTA: spec/11
def F.PAK_DELTA_SENT : Fld := ⟨131, 0, 32, .rc, 0⟩
def F.PAK_DELTA_SKIPPED : Fld := ⟨131, 32, 32, .rc, 0⟩
-- PAK_RBLD: spec/11
def F.PAK_RBLD_RANGE : Fld := ⟨132, 0, 17, .ro, 0⟩
def F.PAK_RBLD_DONE : Fld := ⟨132, 17, 18, .ro, 0⟩
def F.PAK_RBLD_ACTIVE : Fld := ⟨132, 35, 1, .ro, 0⟩
-- PAK_MEMB: spec/11
def F.PAK_MEMB_NODE : Fld := ⟨133, 0, 14, .ro, 0⟩
def F.PAK_MEMB_PV : Fld := ⟨133, 14, 1, .ro, 0⟩
def F.PAK_MEMB_LOST : Fld := ⟨133, 15, 1, .ro, 0⟩
-- LNK_CTL: spec/14
def F.LNK_CTL_EN : Fld := ⟨134, 0, 1, .rw, 1⟩
def F.LNK_CTL_RETRAIN : Fld := ⟨134, 1, 1, .wo, 0⟩
def F.LNK_CTL_PLAIN : Fld := ⟨134, 2, 1, .rwl, 0⟩
-- LNK_STAT: spec/14
def F.LNK_STAT_STATE : Fld := ⟨135, 0, 3, .ro, 0⟩
def F.LNK_STAT_SECURE : Fld := ⟨135, 3, 1, .ro, 0⟩
def F.LNK_STAT_PEERV : Fld := ⟨135, 4, 1, .ro, 0⟩
def F.LNK_STAT_PEER_ACC : Fld := ⟨135, 5, 1, .ro, 0⟩
def F.LNK_STAT_PEER_NODE : Fld := ⟨135, 8, 14, .ro, 0⟩
def F.LNK_STAT_PEER_LINK : Fld := ⟨135, 22, 7, .ro, 0⟩
def F.LNK_STAT_FAILSTEP : Fld := ⟨135, 29, 3, .ro, 0⟩
def F.LNK_STAT_RETRAINS : Fld := ⟨135, 32, 32, .ro, 0⟩
-- LNK_ERR: spec/14
def F.LNK_ERR_CORR : Fld := ⟨136, 0, 24, .rc, 0⟩
def F.LNK_ERR_UNCORR : Fld := ⟨136, 24, 16, .rc, 0⟩
def F.LNK_ERR_TAG : Fld := ⟨136, 40, 12, .rc, 0⟩
def F.LNK_ERR_RETRIES : Fld := ⟨136, 52, 12, .rc, 0⟩
-- LNK_KEY: spec/14
def F.LNK_KEY_TXGEN : Fld := ⟨137, 0, 32, .ro, 0⟩
def F.LNK_KEY_RXGEN : Fld := ⟨137, 32, 32, .ro, 0⟩
-- LNK_TXCTR: spec/14
def F.LNK_TXCTR_CTR : Fld := ⟨138, 0, 64, .ro, 0⟩
-- LNK_RXCTR: spec/14
def F.LNK_RXCTR_CTR : Fld := ⟨139, 0, 64, .ro, 0⟩
-- LNK_SLOTS: spec/14
def F.LNK_SLOTS_TX : Fld := ⟨140, 0, 32, .rc, 0⟩
def F.LNK_SLOTS_RX : Fld := ⟨140, 32, 32, .rc, 0⟩
-- CXP_CFG: spec/13
def F.CXP_CFG_MODE : Fld := ⟨141, 0, 1, .rwl, 0⟩
def F.CXP_CFG_OWN_PBRID : Fld := ⟨141, 4, 12, .rwl, 0⟩
-- CXP_LSTAT: spec/13
def F.CXP_LSTAT_WIDTH : Fld := ⟨142, 0, 4, .ro, 0⟩
def F.CXP_LSTAT_RATE : Fld := ⟨142, 4, 4, .ro, 0⟩
def F.CXP_LSTAT_UP : Fld := ⟨142, 8, 1, .ro, 0⟩
def F.CXP_LSTAT_CXL : Fld := ⟨142, 9, 1, .ro, 0⟩
def F.CXP_LSTAT_LOPT : Fld := ⟨142, 10, 1, .ro, 0⟩
def F.CXP_LSTAT_IDE_CM : Fld := ⟨142, 11, 1, .ro, 0⟩
def F.CXP_LSTAT_IDE_IO : Fld := ⟨142, 12, 4, .ro, 0⟩
def F.CXP_LSTAT_DOWNS : Fld := ⟨142, 32, 32, .ro, 0⟩
-- CXP_MEMCNT: spec/13
def F.CXP_MEMCNT_NOMATCH : Fld := ⟨143, 0, 32, .rc, 0⟩
def F.CXP_MEMCNT_POISON_TX : Fld := ⟨143, 32, 32, .rc, 0⟩
-- CXP_PCNT: spec/13
def F.CXP_PCNT_POISON_RX : Fld := ⟨144, 0, 32, .rc, 0⟩
def F.CXP_PCNT_DECLINED : Fld := ⟨144, 32, 16, .rc, 0⟩
def F.CXP_PCNT_MAPCONF : Fld := ⟨144, 48, 16, .rc, 0⟩
-- CXP_DCSTAT: spec/13
def F.CXP_DCSTAT_ERR : Fld := ⟨145, 0, 1, .w1c, 0⟩
def F.CXP_DCSTAT_UNOFFERED : Fld := ⟨145, 16, 16, .ro, 0⟩
def F.CXP_DCSTAT_EVLOST : Fld := ⟨145, 32, 16, .rc, 0⟩
-- CXP_DCREG: spec/13
def F.CXP_DCREG_BASE : Fld := ⟨146, 0, 17, .rwl, 0⟩
def F.CXP_DCREG_SIZE : Fld := ⟨146, 32, 18, .rwl, 0⟩
-- CXP_SPID: spec/13
def F.CXP_SPID_PBRID : Fld := ⟨147, 0, 12, .ro, 0⟩
def F.CXP_SPID_COLLAR : Fld := ⟨147, 12, 10, .ro, 0⟩
def F.CXP_SPID_VALID : Fld := ⟨147, 22, 1, .ro, 0⟩
def F.CXP_SPID_FAILED : Fld := ⟨147, 23, 1, .ro, 0⟩
def F.CXP_SPID_FCAUSE : Fld := ⟨147, 24, 2, .ro, 0⟩
-- FLS_WEAR: spec/10
def F.FLS_WEAR_ERASE_AVG : Fld := ⟨148, 0, 16, .ro, 0⟩
def F.FLS_WEAR_ERASE_MAX : Fld := ⟨148, 16, 16, .ro, 0⟩
def F.FLS_WEAR_RATED : Fld := ⟨148, 32, 16, .ro, 0xbb8⟩
-- FLS_SPACE: spec/10
def F.FLS_SPACE_FREE : Fld := ⟨149, 0, 27, .ro, 0⟩
def F.FLS_SPACE_VALID : Fld := ⟨149, 27, 27, .ro, 0⟩
def F.FLS_SPACE_BAD : Fld := ⟨149, 54, 10, .ro, 0⟩
-- FLS_QUEUE: spec/10
def F.FLS_QUEUE_QUEUED : Fld := ⟨150, 0, 16, .ro, 0⟩
-- DRM_SALT: spec/02
def F.DRM_SALT_SALT : Fld := ⟨151, 0, 42, .ro, 0⟩  -- DESIGN CHOICE (log 7)
-- RTV_CFG: spec/08
def F.RTV_CFG_SKETCH_EN : Fld := ⟨152, 0, 1, .rwl, 1⟩
-- RTV_RSTAT: spec/08
def F.RTV_RSTAT_VALID : Fld := ⟨153, 0, 17, .ro, 0⟩
def F.RTV_RSTAT_PENDING : Fld := ⟨153, 17, 17, .ro, 0⟩
-- RTV_COMMIT: spec/08
def F.RTV_COMMIT_COMMITTED : Fld := ⟨154, 0, 32, .rc, 0⟩
def F.RTV_COMMIT_RECOPIED : Fld := ⟨154, 32, 32, .rc, 0⟩
-- RTV_RPROBE: spec/08
def F.RTV_RPROBE_ENTRY : Fld := ⟨155, 0, 16, .rw, 0⟩
-- RTV_RDATA0: spec/08
def F.RTV_RDATA0_WORD0 : Fld := ⟨156, 0, 64, .ro, 0⟩
-- RTV_RDATA1: spec/08
def F.RTV_RDATA1_WORD1 : Fld := ⟨157, 0, 64, .ro, 0⟩
-- RTV_RDATA2: spec/08
def F.RTV_RDATA2_WORD2 : Fld := ⟨158, 0, 64, .ro, 0⟩
-- RTV_RDATA3: spec/08
def F.RTV_RDATA3_WORD3 : Fld := ⟨159, 0, 64, .ro, 0⟩
-- RTV_FIDX: spec/08
def F.RTV_FIDX_INDICES : Fld := ⟨160, 0, 64, .rc, 0⟩
-- RTV_FDROP: spec/08
def F.RTV_FDROP_DROPPED : Fld := ⟨161, 0, 32, .rc, 0⟩
def F.RTV_FDROP_EMPTY_BAG : Fld := ⟨161, 32, 32, .rc, 0⟩
-- RTV_FROWS: spec/08
def F.RTV_FROWS_READS : Fld := ⟨162, 0, 32, .rc, 0⟩
def F.RTV_FROWS_SHADOW : Fld := ⟨162, 32, 32, .rc, 0⟩
-- RTV_FAPPLY: spec/08
def F.RTV_FAPPLY_APPLIES : Fld := ⟨163, 0, 32, .rc, 0⟩
-- TRK_CFG: spec/09
def F.TRK_CFG_SIDE_WAIT : Fld := ⟨164, 0, 16, .rwl, 0x3e8⟩
-- TRK_CTX: spec/09
def F.TRK_CTX_INUSE : Fld := ⟨165, 0, 12, .ro, 0⟩
-- TRK_FQRY: spec/09
def F.TRK_FQRY_QUERIES : Fld := ⟨166, 0, 64, .rc, 0⟩
-- TRK_FEXP: spec/09
def F.TRK_FEXP_EXPANDED : Fld := ⟨167, 0, 32, .rc, 0⟩
def F.TRK_FEXP_WAYPOINTS : Fld := ⟨167, 32, 32, .rc, 0⟩
-- TRK_FPART: spec/09
def F.TRK_FPART_PARTIAL : Fld := ⟨168, 0, 32, .rc, 0⟩
def F.TRK_FPART_UNSEEN : Fld := ⟨168, 32, 32, .rc, 0⟩
-- TRK_FMUT: spec/09
def F.TRK_FMUT_INSERTS : Fld := ⟨169, 0, 32, .rc, 0⟩
def F.TRK_FMUT_DELETES : Fld := ⟨169, 32, 32, .rc, 0⟩
-- MAP_EPOCH: spec/02
def F.MAP_EPOCH_EPOCH : Fld := ⟨170, 0, 32, .ro, 0⟩
-- MAP_STAT: spec/02
def F.MAP_STAT_REJECTED : Fld := ⟨171, 0, 1, .w1c, 0⟩
def F.MAP_STAT_CAUSE : Fld := ⟨171, 4, 4, .ro, 0⟩
def F.MAP_STAT_REJ_EPOCH : Fld := ⟨171, 32, 32, .ro, 0⟩
-- MAP_NODE: spec/02
def F.MAP_NODE_NODE : Fld := ⟨172, 0, 14, .rwl, 0⟩
def F.MAP_NODE_VALID : Fld := ⟨172, 15, 1, .rwl, 0⟩
-- MAP_LCFG: spec/14
def F.MAP_LCFG_REKEY_LOG : Fld := ⟨173, 0, 6, .rwl, 0x28⟩
-- MAP_RSTAT: spec/14
def F.MAP_RSTAT_UNROUTABLE : Fld := ⟨174, 0, 32, .rc, 0⟩
def F.MAP_RSTAT_BADMSG : Fld := ⟨174, 32, 32, .rc, 0⟩
-- MAP_KEEP: spec/14
def F.MAP_KEEP_KEEPER : Fld := ⟨175, 0, 1, .ro, 0⟩
def F.MAP_KEEP_LEAD : Fld := ⟨175, 1, 1, .ro, 0⟩
def F.MAP_KEEP_KSET : Fld := ⟨175, 2, 3, .ro, 0⟩
def F.MAP_KEEP_LEAD_NODE : Fld := ⟨175, 16, 14, .ro, 0⟩
def F.MAP_KEEP_TERM : Fld := ⟨175, 32, 32, .ro, 0⟩
-- MAP_KLOG: spec/14
def F.MAP_KLOG_COMMITTED : Fld := ⟨176, 0, 64, .ro, 0⟩
-- MAPR_RMASK0: spec/14
def F.MAPR_RMASK0_LINKS_LO : Fld := ⟨177, 0, 64, .rwl, 0⟩
-- MAPR_RMASK1: spec/14
def F.MAPR_RMASK1_LINKS_HI : Fld := ⟨178, 0, 32, .rwl, 0⟩
def F.MAPR_RMASK1_LOCAL : Fld := ⟨178, 32, 1, .rwl, 0⟩
def F.MAPR_RMASK1_VALID : Fld := ⟨178, 33, 1, .rwl, 0⟩
-- MAPM_RMASK0: spec/14
def F.MAPM_RMASK0_LINKS_LO : Fld := ⟨179, 0, 64, .rwl, 0⟩
-- MAPM_RMASK1: spec/14
def F.MAPM_RMASK1_LINKS_HI : Fld := ⟨180, 0, 32, .rwl, 0⟩
def F.MAPM_RMASK1_LOCAL : Fld := ⟨180, 32, 1, .rwl, 0⟩
def F.MAPM_RMASK1_VALID : Fld := ⟨180, 33, 1, .rwl, 0⟩
-- SHP_GMASK: spec/19
def F.SHP_GMASK_MASK : Fld := ⟨181, 0, 64, .rw, 0⟩
-- PTR_GMASK: spec/19
def F.PTR_GMASK_MASK : Fld := ⟨182, 0, 64, .rw, 0⟩
-- RNG_GMASK: spec/19
def F.RNG_GMASK_MASK : Fld := ⟨183, 0, 64, .rw, 0⟩
-- FN_GMASK: spec/19
def F.FN_GMASK_MASK : Fld := ⟨184, 0, 64, .rw, 0⟩
-- KNL_GMASK: spec/19
def F.KNL_GMASK_MASK : Fld := ⟨185, 0, 64, .rw, 0⟩
-- LNK_GMASK: spec/19
def F.LNK_GMASK_MASK : Fld := ⟨186, 0, 64, .rw, 0⟩
-- FLS_GMASK: spec/19
def F.FLS_GMASK_MASK : Fld := ⟨187, 0, 64, .rw, 0⟩
-- DRM_GMASK: spec/19
def F.DRM_GMASK_MASK : Fld := ⟨188, 0, 64, .rw, 0⟩

/-- The registers of the SYS slot: number, base, strides and counts, presence, fields. -/
def regsSYS : List RegDef := [
  ⟨0, 0x0, 0, 1, 0, 1, .always, [F.SYS_ID_VENDOR, F.SYS_ID_DEVICE, F.SYS_ID_STEP_LETTER, F.SYS_ID_STEP_DIGIT]⟩,
  ⟨1, 0x8, 0, 1, 0, 1, .always, [F.SYS_VARIANT_STACKS, F.SYS_VARIANT_IODIES, F.SYS_VARIANT_IO_STEP_LETTER, F.SYS_VARIANT_IO_STEP_DIGIT, F.SYS_VARIANT_LINKS, F.SYS_VARIANT_FLASH_CH]⟩,
  ⟨2, 0x10, 0, 1, 0, 1, .always, [F.SYS_LOCK_LOCK]⟩,
  ⟨3, 0x18, 0, 1, 0, 1, .always, [F.SYS_XSTAT_ACTIVE, F.SYS_XSTAT_PENDING, F.SYS_XSTAT_ARG, F.SYS_XSTAT_DONE_COUNT]⟩,
  ⟨4, 0x20, 0, 1, 0, 1, .always, [F.SYS_STRAP_SLOTID, F.SYS_STRAP_RECOVERY, F.SYS_STRAP_CBL, F.SYS_STRAP_CXLCBL]⟩]

/-- The registers of the PWR slot: number, base, strides and counts, presence, fields. -/
def regsPWR : List RegDef := [
  ⟨5, 0x400000, 0, 1, 0, 1, .always, [F.PWR_SEQ_PHASE, F.PWR_SEQ_SAVED, F.PWR_SEQ_VWARN, F.PWR_SEQ_OFFCAUSE, F.PWR_SEQ_READY_MS]⟩,
  ⟨6, 0x400008, 0, 1, 0, 1, .always, [F.PWR_OFFREQ_GO]⟩,
  ⟨7, 0x400010, 0, 1, 0, 1, .always, [F.PWR_CAP_LIMIT, F.PWR_CAP_DUTY, F.PWR_CAP_THERMAL]⟩,
  ⟨8, 0x400018, 0, 1, 0, 1, .always, [F.PWR_THR_CAPPED_US, F.PWR_THR_THERMAL_US]⟩,
  ⟨9, 0x400020, 0, 1, 0, 1, .always, [F.PWR_IN_VOLT, F.PWR_IN_CURR, F.PWR_IN_POWER]⟩,
  ⟨10, 0x400028, 0, 1, 0, 1, .always, [F.PWR_ENERGY_MJ]⟩,
  ⟨11, 0x400100, 8, 38, 0, 1, .sensor, [F.PWR_TEMP_TEMP, F.PWR_TEMP_MAX, F.PWR_TEMP_VALID]⟩,
  ⟨12, 0x410000, 8, 113, 0, 1, .domain, [F.PWR_DCTL_REQ, F.PWR_DCTL_STATE, F.PWR_DCTL_ERR]⟩]

/-- The registers of the CLK slot: number, base, strides and counts, presence, fields. -/
def regsCLK : List RegDef := [
  ⟨13, 0x800000, 0, 1, 0, 1, .always, [F.CLK_SPREAD_EN, F.CLK_SPREAD_DEPTH]⟩,
  ⟨14, 0x800008, 0, 1, 0, 1, .always, [F.CLK_STAT_LOCK, F.CLK_STAT_LOSTLOCK]⟩]

/-- The registers of the TMR slot: number, base, strides and counts, presence, fields. -/
def regsTMR : List RegDef := [
  ⟨15, 0xc00000, 0, 1, 0, 1, .always, [F.TMR_NOW_TICKS]⟩]

/-- The registers of the RAS slot: number, base, strides and counts, presence, fields. -/
def regsRAS : List RegDef := [
  ⟨16, 0x1000000, 0, 1, 0, 1, .always, [F.RAS_CFG_RINGWD, F.RAS_CFG_MAXRST]⟩,
  ⟨17, 0x1000008, 0, 1, 0, 1, .always, [F.RAS_TMO_FABRIC]⟩,
  ⟨18, 0x1000010, 0, 1, 0, 1, .always, [F.RAS_STAT_MSTATE, F.RAS_STAT_CAUSE, F.RAS_STAT_ABSORBED, F.RAS_STAT_RESETS, F.RAS_STAT_LAST_MS]⟩,
  ⟨19, 0x1000018, 0, 1, 0, 1, .always, [F.RAS_RESET_GO]⟩,
  ⟨20, 0x1000020, 0, 1, 0, 1, .always, [F.RAS_FENCE_KIND, F.RAS_FENCE_INSTANCE, F.RAS_FENCE_OP, F.RAS_FENCE_BUSY, F.RAS_FENCE_RESULT]⟩,
  ⟨21, 0x1000028, 0, 1, 0, 1, .always, [F.RAS_FMASK_BAYS, F.RAS_FMASK_SLICES, F.RAS_FMASK_WALKERS, F.RAS_FMASK_CLUSTERS]⟩,
  ⟨22, 0x1000030, 0, 1, 0, 1, .always, [F.RAS_FLMASK_FLASH]⟩,
  ⟨23, 0x1000038, 0, 1, 0, 1, .always, [F.RAS_MCFG_PERIOD, F.RAS_MCFG_EYE_MIN, F.RAS_MCFG_DRAM_MIN, F.RAS_MCFG_V_MIN]⟩,
  ⟨24, 0x1000100, 8, 7, 0, 1, .always, [F.RAS_LKCFG_THRESH, F.RAS_LKCFG_WINDOW]⟩,
  ⟨25, 0x1000200, 8, 7, 0, 1, .always, [F.RAS_CNT_CORR, F.RAS_CNT_UNCORR, F.RAS_CNT_RETIRED]⟩,
  ⟨26, 0x1010000, 8, 96, 0, 1, .link, [F.RAS_LEYE_HEIGHT, F.RAS_LEYE_WIDTH, F.RAS_LEYE_LANE]⟩,
  ⟨27, 0x1011000, 8, 8, 0, 1, .stack, [F.RAS_DMARG_READ, F.RAS_DMARG_WRITE]⟩,
  ⟨28, 0x1012000, 8, 113, 0, 1, .domain, [F.RAS_VMARG_VOLT, F.RAS_VMARG_MARGIN]⟩]

/-- The registers of the SEC slot: number, base, strides and counts, presence, fields. -/
def regsSEC : List RegDef := [
  ⟨29, 0x1400000, 0, 1, 0, 1, .always, [F.SEC_MBCMD_OPCODE, F.SEC_MBCMD_LENGTH, F.SEC_MBCMD_GO, F.SEC_MBCMD_ARG]⟩,
  ⟨30, 0x1400008, 0, 1, 0, 1, .always, [F.SEC_MBSTAT_BUSY, F.SEC_MBSTAT_STATUS, F.SEC_MBSTAT_RLEN]⟩,
  ⟨31, 0x1400010, 0, 1, 0, 1, .always, [F.SEC_FWSTAT_ACTIVE, F.SEC_FWSTAT_PENDING, F.SEC_FWSTAT_TRIAL, F.SEC_FWSTAT_OTHER_OK, F.SEC_FWSTAT_ERR, F.SEC_FWSTAT_VERSION]⟩,
  ⟨32, 0x1400018, 0, 1, 0, 1, .always, [F.SEC_SVN_RUNNING]⟩,
  ⟨33, 0x1400020, 0, 1, 0, 1, .always, [F.SEC_FUSE_FUSED, F.SEC_FUSE_PROD, F.SEC_FUSE_EREVOKE, F.SEC_FUSE_LREVOKE]⟩,
  ⟨34, 0x1400028, 0, 1, 0, 1, .always, [F.SEC_DBG_STATE, F.SEC_DBG_KEYS_GONE]⟩,
  ⟨35, 0x1400030, 0, 1, 0, 1, .always, [F.SEC_SESS_DOE, F.SEC_SESS_MCTP, F.SEC_SESS_ENDED]⟩,
  ⟨36, 0x1400038, 0, 1, 0, 1, .always, [F.SEC_LKFAIL_CHAIN, F.SEC_LKFAIL_SIG, F.SEC_LKFAIL_DEBUG]⟩,
  ⟨37, 0x1401000, 8, 512, 0, 1, .always, [F.SEC_MBDATA_WORD]⟩,
  ⟨38, 0x1402000, 8, 513, 0, 1, .fnFrom1, [F.SEC_TDI_STATE, F.SEC_TDI_ECAUSE, F.SEC_TDI_STREAM]⟩]

/-- The registers of the SHP slot: number, base, strides and counts, presence, fields. -/
def regsSHP : List RegDef := [
  ⟨39, 0x1800000, 65536, 32, 0, 1, .always, [F.SHP_CTL_TRACE_THR, F.SHP_CTL_TRACE_EN, F.SHP_CTL_TRACE_STOP]⟩,
  ⟨40, 0x1800008, 65536, 32, 0, 1, .always, [F.SHP_STAT_BUSY, F.SHP_STAT_QDEPTH, F.SHP_STAT_USABLE]⟩,
  ⟨41, 0x1800010, 65536, 32, 0, 1, .always, [F.SHP_STEPS_COUNT]⟩,
  ⟨42, 0x1800018, 65536, 32, 0, 1, .always, [F.SHP_CYCLE_CYCLE]⟩,
  ⟨43, 0x1800020, 65536, 32, 0, 1, .always, [F.SHP_WDOG_EXPIRED]⟩,
  ⟨44, 0x1800028, 65536, 32, 0, 1, .always, [F.SHP_TRPTR_NEXT, F.SHP_TRPTR_WRAPPED, F.SHP_TRPTR_STOPPED]⟩,
  ⟨45, 0x1800040, 65536, 32, 8, 8, .always, [F.SHP_THR_STATE, F.SHP_THR_STEP, F.SHP_THR_OPCODE, F.SHP_THR_DINDEX]⟩,
  ⟨46, 0x1a00000, 8, 8, 0, 1, .always, [F.SHP_CLSTAT_LOADED, F.SHP_CLSTAT_TABLE_ID]⟩,
  ⟨47, 0x1a00100, 0, 1, 0, 1, .always, [F.SHP_TPROBE_CLUSTER, F.SHP_TPROBE_SLOT]⟩,
  ⟨48, 0x1a00108, 0, 1, 0, 1, .always, [F.SHP_TDATA0_WORD0]⟩,
  ⟨49, 0x1a00110, 0, 1, 0, 1, .always, [F.SHP_TDATA1_WORD1]⟩,
  ⟨181, 0x1b10000, 8, 8, 0, 1, .always, [F.SHP_GMASK_MASK]⟩]

/-- The registers of the PTR slot: number, base, strides and counts, presence, fields. -/
def regsPTR : List RegDef := [
  ⟨50, 0x1c00000, 65536, 16, 0, 1, .always, [F.PTR_STAT_ENTRIES, F.PTR_STAT_VICTIMS, F.PTR_STAT_TRACKERS, F.PTR_STAT_ABUF]⟩,
  ⟨51, 0x1c00008, 65536, 16, 0, 1, .always, [F.PTR_EVICT_COUNT]⟩,
  ⟨52, 0x1c00010, 65536, 16, 0, 1, .always, [F.PTR_MCAST_COUNT]⟩,
  ⟨53, 0x1c00018, 65536, 16, 0, 1, .always, [F.PTR_STALE_COUNT]⟩,
  ⟨54, 0x1c00020, 65536, 16, 0, 1, .always, [F.PTR_ASEQ_COUNT]⟩,
  ⟨55, 0x1c00028, 65536, 16, 0, 1, .always, [F.PTR_POISON_MARKED, F.PTR_POISON_DROPPED]⟩,
  ⟨56, 0x1c00030, 65536, 16, 0, 1, .always, [F.PTR_PROBE_SET, F.PTR_PROBE_WAY]⟩,
  ⟨57, 0x1c00038, 65536, 16, 0, 1, .always, [F.PTR_PDATA0_WORD0]⟩,
  ⟨58, 0x1c00040, 65536, 16, 0, 1, .always, [F.PTR_PDATA1_WORD1]⟩,
  ⟨59, 0x1e00000, 8, 513, 0, 1, .always, [F.PTR_SGRP_MCGROUP, F.PTR_SGRP_MCVALID, F.PTR_SGRP_MEMBERS]⟩,
  ⟨182, 0x1f10000, 8, 8, 0, 1, .always, [F.PTR_GMASK_MASK]⟩]

/-- The registers of the XLT slot: number, base, strides and counts, presence, fields. -/
def regsXLT : List RegDef := [
  ⟨60, 0x2000000, 0, 1, 0, 1, .always, [F.XLT_CFG_SCENT_DEPTH, F.XLT_CFG_TILE_FILL]⟩,
  ⟨61, 0x2000008, 0, 1, 0, 1, .always, [F.XLT_STAT_WALKS, F.XLT_STAT_INV_PHASE, F.XLT_STAT_OLD_COUNT]⟩,
  ⟨62, 0x2000010, 0, 1, 0, 1, .always, [F.XLT_GEN_GEN]⟩,
  ⟨63, 0x2000018, 0, 1, 0, 1, .always, [F.XLT_MISS_BAY, F.XLT_MISS_WALK]⟩,
  ⟨64, 0x2000020, 0, 1, 0, 1, .always, [F.XLT_SCENT_WALKS, F.XLT_SCENT_USED]⟩,
  ⟨65, 0x2100000, 32, 8192, 0, 1, .always, [F.XLT_WBASE_BASE]⟩,
  ⟨66, 0x2100008, 32, 8192, 0, 1, .always, [F.XLT_WCTL_SIZE, F.XLT_WCTL_COLLAR, F.XLT_WCTL_R, F.XLT_WCTL_W, F.XLT_WCTL_A, F.XLT_WCTL_SRCMODE, F.XLT_WCTL_SRCNODE, F.XLT_WCTL_ST, F.XLT_WCTL_OPEN, F.XLT_WCTL_ERR]⟩,
  ⟨67, 0x2100010, 32, 8192, 0, 1, .always, [F.XLT_WINFLT_COUNT]⟩,
  ⟨68, 0x2100018, 32, 8192, 0, 1, .always, [F.XLT_WREJ_COUNT]⟩]

/-- The registers of the RNG slot: number, base, strides and counts, presence, fields. -/
def regsRNG : List RegDef := [
  ⟨69, 0x2400000, 128, 4096, 0, 1, .always, [F.RNG_BIND_COLLAR, F.RNG_BIND_LGROUP, F.RNG_BIND_BOUND, F.RNG_BIND_ERR]⟩,
  ⟨70, 0x2400008, 128, 4096, 0, 1, .always, [F.RNG_CTL_EN, F.RNG_CTL_STATE, F.RNG_CTL_PLACE, F.RNG_CTL_CPLACE, F.RNG_CTL_SIZE, F.RNG_CTL_CSIZE, F.RNG_CTL_SERVICE, F.RNG_CTL_ERR]⟩,
  ⟨71, 0x2400010, 128, 4096, 0, 1, .always, [F.RNG_DBASE_ADDR]⟩,
  ⟨72, 0x2400018, 128, 4096, 0, 1, .always, [F.RNG_CBASE_ADDR]⟩,
  ⟨73, 0x2400020, 128, 4096, 0, 1, .always, [F.RNG_BAYS_MASK]⟩,
  ⟨74, 0x2400028, 128, 4096, 0, 1, .always, [F.RNG_PTR_FETCH, F.RNG_PTR_TAIL]⟩,
  ⟨75, 0x2400030, 128, 4096, 0, 1, .always, [F.RNG_CPTR_CTAIL, F.RNG_CPTR_CHEAD]⟩,
  ⟨76, 0x2400038, 128, 4096, 0, 1, .always, [F.RNG_IRQ_EN, F.RNG_IRQ_VECTOR, F.RNG_IRQ_MAXCNT, F.RNG_IRQ_MAXTIME]⟩,
  ⟨77, 0x2400040, 128, 4096, 0, 1, .always, [F.RNG_HOLD_HOLD, F.RNG_HOLD_OUTSTANDING]⟩,
  ⟨78, 0x2400048, 128, 4096, 0, 1, .always, [F.RNG_CNT_DONE, F.RNG_CNT_DB_BAD, F.RNG_CNT_DB_DROP]⟩,
  ⟨183, 0x2710000, 8, 8, 0, 1, .always, [F.RNG_GMASK_MASK]⟩]

/-- The registers of the FN slot: number, base, strides and counts, presence, fields. -/
def regsFN : List RegDef := [
  ⟨79, 0x2800000, 1024, 513, 0, 1, .always, [F.FN_CTL_EN, F.FN_CTL_FLR, F.FN_CTL_XCLASS, F.FN_CTL_ERR]⟩,
  ⟨80, 0x2800008, 1024, 513, 0, 1, .always, [F.FN_STAT_STATE, F.FN_STAT_PENDING_ENABLE, F.FN_STAT_CAUSE, F.FN_STAT_HOSTDISC, F.FN_STAT_MAPPED, F.FN_STAT_RINGS, F.FN_STAT_OUTST]⟩,
  ⟨81, 0x2800010, 1024, 513, 0, 1, .always, [F.FN_VEC_BASE, F.FN_VEC_COUNT]⟩,
  ⟨82, 0x2800018, 1024, 513, 0, 1, .always, [F.FN_IRQF_FABRIC]⟩,
  ⟨83, 0x2800020, 1024, 513, 0, 1, .always, [F.FN_ICNT_SENT, F.FN_ICNT_DROPPED, F.FN_ICNT_CANCELLED]⟩,
  ⟨84, 0x2800080, 1024, 513, 0, 1, .always, [F.FN_FRBASE_ADDR]⟩,
  ⟨85, 0x2800088, 1024, 513, 0, 1, .always, [F.FN_FRCTL_EN, F.FN_FRCTL_PLACE, F.FN_FRCTL_SIZE, F.FN_FRCTL_VECTOR]⟩,
  ⟨86, 0x2800090, 1024, 513, 0, 1, .always, [F.FN_FRPTR_FTAIL, F.FN_FRPTR_FHEAD]⟩,
  ⟨87, 0x2800098, 1024, 513, 0, 1, .always, [F.FN_FROVF_LOST, F.FN_FROVF_FH_BAD, F.FN_FROVF_FH_DROP]⟩,
  ⟨88, 0x2800100, 1024, 513, 0, 1, .always, [F.FN_XLT_ROOT_EN, F.FN_XLT_ROOT_LEVELS, F.FN_XLT_ROOT_ROOT]⟩,
  ⟨184, 0x2b10000, 8, 8, 0, 1, .always, [F.FN_GMASK_MASK]⟩]

/-- The registers of the LSH slot: number, base, strides and counts, presence, fields. -/
def regsLSH : List RegDef := [
  ⟨89, 0x2c00000, 0, 1, 0, 1, .always, [F.LSH_CFG_OPCOST]⟩,
  ⟨90, 0x2c10000, 64, 513, 0, 1, .always, [F.LSHF_RATE_RATE, F.LSHF_RATE_BURST, F.LSHF_RATE_UNLIM]⟩,
  ⟨91, 0x2c10008, 64, 513, 0, 1, .always, [F.LSHF_WGT_WEIGHT]⟩,
  ⟨92, 0x2c10010, 64, 513, 0, 1, .always, [F.LSHF_TOK_BAL, F.LSHF_TOK_FRAC]⟩,
  ⟨93, 0x2c10018, 64, 513, 0, 1, .always, [F.LSHF_BYTES_BYTES]⟩,
  ⟨94, 0x2c10020, 64, 513, 0, 1, .always, [F.LSHF_OPS_GRANTS, F.LSHF_OPS_HELD]⟩,
  ⟨95, 0x2c20000, 512, 513, 64, 8, .always, [F.LSHS_RATE_RATE, F.LSHS_RATE_BURST, F.LSHS_RATE_UNLIM]⟩,
  ⟨96, 0x2c20008, 512, 513, 64, 8, .always, [F.LSHS_WGT_WEIGHT]⟩,
  ⟨97, 0x2c20010, 512, 513, 64, 8, .always, [F.LSHS_TOK_BAL, F.LSHS_TOK_FRAC]⟩,
  ⟨98, 0x2c20018, 512, 513, 64, 8, .always, [F.LSHS_BYTES_BYTES]⟩,
  ⟨99, 0x2c20020, 512, 513, 64, 8, .always, [F.LSHS_OPS_GRANTS, F.LSHS_OPS_HELD]⟩,
  ⟨100, 0x2c80000, 512, 38, 64, 8, .always, [F.LSHP_RATE_RATE, F.LSHP_RATE_BURST, F.LSHP_RATE_UNLIM]⟩,
  ⟨101, 0x2c80008, 512, 38, 64, 8, .always, [F.LSHP_WGT_WEIGHT]⟩,
  ⟨102, 0x2c80010, 512, 38, 64, 8, .always, [F.LSHP_TOK_BAL, F.LSHP_TOK_FRAC]⟩,
  ⟨103, 0x2c80018, 512, 38, 64, 8, .always, [F.LSHP_BYTES_BYTES]⟩,
  ⟨104, 0x2c80020, 512, 38, 64, 8, .always, [F.LSHP_OPS_GRANTS, F.LSHP_OPS_HELD]⟩,
  ⟨105, 0x2c90000, 8, 38, 0, 1, .always, [F.LSH_PMOD_MODW]⟩]

/-- The registers of the KNL slot: number, base, strides and counts, presence, fields. -/
def regsKNL : List RegDef := [
  ⟨106, 0x3000000, 32, 2048, 0, 1, .always, [F.KNL_RANGE_BASE, F.KNL_RANGE_SIZE]⟩,
  ⟨107, 0x3000008, 32, 2048, 0, 1, .always, [F.KNL_BIND_COLLAR, F.KNL_BIND_STATE, F.KNL_BIND_PHASE, F.KNL_BIND_HOSTEXT, F.KNL_BIND_DCREGION, F.KNL_BIND_EPOCH]⟩,
  ⟨108, 0x3000010, 32, 2048, 0, 1, .always, [F.KNL_INFLT_COUNT]⟩,
  ⟨109, 0x3000018, 32, 2048, 0, 1, .always, [F.KNL_REJECT_COUNT]⟩,
  ⟨185, 0x3310000, 8, 8, 0, 1, .always, [F.KNL_GMASK_MASK]⟩]

/-- The registers of the TIR slot: number, base, strides and counts, presence, fields. -/
def regsTIR : List RegDef := [
  ⟨110, 0x3400000, 0, 1, 0, 1, .always, [F.TIR_REGION_UNDO, F.TIR_REGION_SHADOW, F.TIR_REGION_PINNED, F.TIR_REGION_LC, F.TIR_REGION_META]⟩,
  ⟨111, 0x3400008, 0, 1, 0, 1, .always, [F.TIR_CTL_EN, F.TIR_CTL_ERR, F.TIR_CTL_QERR, F.TIR_CTL_DIRTY_HI]⟩,
  ⟨112, 0x3400010, 0, 1, 0, 1, .always, [F.TIR_DLCFG_BASE, F.TIR_DLCFG_PER]⟩,
  ⟨113, 0x3400018, 0, 1, 0, 1, .always, [F.TIR_OCC_VALID, F.TIR_OCC_DIRTY]⟩,
  ⟨114, 0x3400020, 0, 1, 0, 1, .always, [F.TIR_RET_RETIRED, F.TIR_RET_LIMIT]⟩,
  ⟨115, 0x3400028, 0, 1, 0, 1, .always, [F.TIR_TT_PINNED, F.TIR_TT_SHADOW]⟩,
  ⟨116, 0x3500000, 64, 2048, 0, 1, .always, [F.TIR_KPIN_QUOTA, F.TIR_KPIN_USE]⟩,
  ⟨117, 0x3500008, 64, 2048, 0, 1, .always, [F.TIR_KLC_SHARE, F.TIR_KLC_USE]⟩,
  ⟨118, 0x3500010, 64, 2048, 0, 1, .always, [F.TIR_KSHD_QUOTA, F.TIR_KSHD_USE]⟩,
  ⟨119, 0x3500018, 64, 2048, 0, 1, .always, [F.TIR_KUNDO_QUOTA, F.TIR_KUNDO_USE]⟩,
  ⟨120, 0x3500020, 64, 2048, 0, 1, .always, [F.TIR_KFRATE_RATE, F.TIR_KFRATE_BURST]⟩,
  ⟨121, 0x3500028, 64, 2048, 0, 1, .always, [F.TIR_KFBAL_BALANCE]⟩,
  ⟨122, 0x3500030, 64, 2048, 0, 1, .always, [F.TIR_KFPROG_PROGRAMMED]⟩]

/-- The registers of the EPC slot: number, base, strides and counts, presence, fields. -/
def regsEPC : List RegDef := [
  ⟨123, 0x3800000, 0, 1, 0, 1, .always, [F.EPC_CFG_HEELFN, F.EPC_CFG_UNDO_HI, F.EPC_CFG_RESERVE, F.EPC_CFG_LOSS_TIME]⟩,
  ⟨124, 0x3800008, 0, 1, 0, 1, .always, [F.EPC_EPOCH_EPOCH, F.EPC_EPOCH_WAIT]⟩,
  ⟨125, 0x3800010, 0, 1, 0, 1, .always, [F.EPC_LAST_LAST]⟩,
  ⟨126, 0x3800018, 0, 1, 0, 1, .always, [F.EPC_STAT_PHASE, F.EPC_STAT_LEADER, F.EPC_STAT_INGROUP, F.EPC_STAT_LEADER_NODE, F.EPC_STAT_CAUSE]⟩,
  ⟨127, 0x3800020, 0, 1, 0, 1, .always, [F.EPC_CNT_HEELS, F.EPC_CNT_ROLLBACKS, F.EPC_CNT_FORCED]⟩,
  ⟨128, 0x3800028, 0, 1, 0, 1, .always, [F.EPC_UNDO_PAGES, F.EPC_UNDO_RESERVE_USE]⟩]

/-- The registers of the PAK slot: number, base, strides and counts, presence, fields. -/
def regsPAK : List RegDef := [
  ⟨129, 0x3c00000, 0, 1, 0, 1, .always, [F.PAK_CFG_PACK, F.PAK_CFG_K, F.PAK_CFG_POS, F.PAK_CFG_VALID]⟩,
  ⟨130, 0x3c00008, 0, 1, 0, 1, .always, [F.PAK_STAT_STATE, F.PAK_STAT_LOST_A, F.PAK_STAT_LOST_AV, F.PAK_STAT_LOST_B, F.PAK_STAT_LOST_BV]⟩,
  ⟨131, 0x3c00010, 0, 1, 0, 1, .always, [F.PAK_DELTA_SENT, F.PAK_DELTA_SKIPPED]⟩,
  ⟨132, 0x3c00018, 0, 1, 0, 1, .always, [F.PAK_RBLD_RANGE, F.PAK_RBLD_DONE, F.PAK_RBLD_ACTIVE]⟩,
  ⟨133, 0x3c00100, 8, 16, 0, 1, .always, [F.PAK_MEMB_NODE, F.PAK_MEMB_PV, F.PAK_MEMB_LOST]⟩]

/-- The registers of the LNK slot: number, base, strides and counts, presence, fields. -/
def regsLNK : List RegDef := [
  ⟨134, 0x4000000, 32768, 96, 0, 1, .link, [F.LNK_CTL_EN, F.LNK_CTL_RETRAIN, F.LNK_CTL_PLAIN]⟩,
  ⟨135, 0x4000008, 32768, 96, 0, 1, .link, [F.LNK_STAT_STATE, F.LNK_STAT_SECURE, F.LNK_STAT_PEERV, F.LNK_STAT_PEER_ACC, F.LNK_STAT_PEER_NODE, F.LNK_STAT_PEER_LINK, F.LNK_STAT_FAILSTEP, F.LNK_STAT_RETRAINS]⟩,
  ⟨136, 0x4000010, 32768, 96, 0, 1, .link, [F.LNK_ERR_CORR, F.LNK_ERR_UNCORR, F.LNK_ERR_TAG, F.LNK_ERR_RETRIES]⟩,
  ⟨137, 0x4000018, 32768, 96, 0, 1, .link, [F.LNK_KEY_TXGEN, F.LNK_KEY_RXGEN]⟩,
  ⟨138, 0x4000020, 32768, 96, 0, 1, .link, [F.LNK_TXCTR_CTR]⟩,
  ⟨139, 0x4000028, 32768, 96, 0, 1, .link, [F.LNK_RXCTR_CTR]⟩,
  ⟨140, 0x4000030, 32768, 96, 0, 1, .link, [F.LNK_SLOTS_TX, F.LNK_SLOTS_RX]⟩,
  ⟨186, 0x4310000, 8, 8, 0, 1, .always, [F.LNK_GMASK_MASK]⟩]

/-- The registers of the CXP slot: number, base, strides and counts, presence, fields. -/
def regsCXP : List RegDef := [
  ⟨141, 0x4400000, 0, 1, 0, 1, .always, [F.CXP_CFG_MODE, F.CXP_CFG_OWN_PBRID]⟩,
  ⟨142, 0x4400008, 0, 1, 0, 1, .always, [F.CXP_LSTAT_WIDTH, F.CXP_LSTAT_RATE, F.CXP_LSTAT_UP, F.CXP_LSTAT_CXL, F.CXP_LSTAT_LOPT, F.CXP_LSTAT_IDE_CM, F.CXP_LSTAT_IDE_IO, F.CXP_LSTAT_DOWNS]⟩,
  ⟨143, 0x4400010, 0, 1, 0, 1, .always, [F.CXP_MEMCNT_NOMATCH, F.CXP_MEMCNT_POISON_TX]⟩,
  ⟨144, 0x4400018, 0, 1, 0, 1, .always, [F.CXP_PCNT_POISON_RX, F.CXP_PCNT_DECLINED, F.CXP_PCNT_MAPCONF]⟩,
  ⟨145, 0x4400020, 0, 1, 0, 1, .always, [F.CXP_DCSTAT_ERR, F.CXP_DCSTAT_UNOFFERED, F.CXP_DCSTAT_EVLOST]⟩,
  ⟨146, 0x4400100, 8, 8, 0, 1, .always, [F.CXP_DCREG_BASE, F.CXP_DCREG_SIZE]⟩,
  ⟨147, 0x4410000, 8, 512, 0, 1, .always, [F.CXP_SPID_PBRID, F.CXP_SPID_COLLAR, F.CXP_SPID_VALID, F.CXP_SPID_FAILED, F.CXP_SPID_FCAUSE]⟩]

/-- The registers of the FLS slot: number, base, strides and counts, presence, fields. -/
def regsFLS : List RegDef := [
  ⟨148, 0x4800000, 65536, 32, 0, 1, .flash, [F.FLS_WEAR_ERASE_AVG, F.FLS_WEAR_ERASE_MAX, F.FLS_WEAR_RATED]⟩,
  ⟨149, 0x4800008, 65536, 32, 0, 1, .flash, [F.FLS_SPACE_FREE, F.FLS_SPACE_VALID, F.FLS_SPACE_BAD]⟩,
  ⟨150, 0x4800010, 65536, 32, 0, 1, .flash, [F.FLS_QUEUE_QUEUED]⟩,
  ⟨187, 0x4b10000, 8, 8, 0, 1, .always, [F.FLS_GMASK_MASK]⟩]

/-- The registers of the DRM slot: number, base, strides and counts, presence, fields. -/
def regsDRM : List RegDef := [
  ⟨151, 0x4e00000, 0, 1, 0, 1, .always, [F.DRM_SALT_SALT]⟩,
  ⟨188, 0x4f10000, 8, 8, 0, 1, .always, [F.DRM_GMASK_MASK]⟩]

/-- The registers of the RTV slot: number, base, strides and counts, presence, fields. -/
def regsRTV : List RegDef := [
  ⟨152, 0x5000000, 0, 1, 0, 1, .always, [F.RTV_CFG_SKETCH_EN]⟩,
  ⟨153, 0x5000008, 0, 1, 0, 1, .always, [F.RTV_RSTAT_VALID, F.RTV_RSTAT_PENDING]⟩,
  ⟨154, 0x5000010, 0, 1, 0, 1, .always, [F.RTV_COMMIT_COMMITTED, F.RTV_COMMIT_RECOPIED]⟩,
  ⟨155, 0x5000018, 0, 1, 0, 1, .always, [F.RTV_RPROBE_ENTRY]⟩,
  ⟨156, 0x5000020, 0, 1, 0, 1, .always, [F.RTV_RDATA0_WORD0]⟩,
  ⟨157, 0x5000028, 0, 1, 0, 1, .always, [F.RTV_RDATA1_WORD1]⟩,
  ⟨158, 0x5000030, 0, 1, 0, 1, .always, [F.RTV_RDATA2_WORD2]⟩,
  ⟨159, 0x5000038, 0, 1, 0, 1, .always, [F.RTV_RDATA3_WORD3]⟩,
  ⟨160, 0x5100000, 32, 513, 0, 1, .always, [F.RTV_FIDX_INDICES]⟩,
  ⟨161, 0x5100008, 32, 513, 0, 1, .always, [F.RTV_FDROP_DROPPED, F.RTV_FDROP_EMPTY_BAG]⟩,
  ⟨162, 0x5100010, 32, 513, 0, 1, .always, [F.RTV_FROWS_READS, F.RTV_FROWS_SHADOW]⟩,
  ⟨163, 0x5100018, 32, 513, 0, 1, .always, [F.RTV_FAPPLY_APPLIES]⟩]

/-- The registers of the TRK slot: number, base, strides and counts, presence, fields. -/
def regsTRK : List RegDef := [
  ⟨164, 0x5400000, 0, 1, 0, 1, .always, [F.TRK_CFG_SIDE_WAIT]⟩,
  ⟨165, 0x5400008, 0, 1, 0, 1, .always, [F.TRK_CTX_INUSE]⟩,
  ⟨166, 0x5500000, 32, 513, 0, 1, .always, [F.TRK_FQRY_QUERIES]⟩,
  ⟨167, 0x5500008, 32, 513, 0, 1, .always, [F.TRK_FEXP_EXPANDED, F.TRK_FEXP_WAYPOINTS]⟩,
  ⟨168, 0x5500010, 32, 513, 0, 1, .always, [F.TRK_FPART_PARTIAL, F.TRK_FPART_UNSEEN]⟩,
  ⟨169, 0x5500018, 32, 513, 0, 1, .always, [F.TRK_FMUT_INSERTS, F.TRK_FMUT_DELETES]⟩]

/-- The registers of the MAP slot: number, base, strides and counts, presence, fields. -/
def regsMAP : List RegDef := [
  ⟨170, 0x5800000, 0, 1, 0, 1, .always, [F.MAP_EPOCH_EPOCH]⟩,
  ⟨171, 0x5800008, 0, 1, 0, 1, .always, [F.MAP_STAT_REJECTED, F.MAP_STAT_CAUSE, F.MAP_STAT_REJ_EPOCH]⟩,
  ⟨172, 0x5800010, 0, 1, 0, 1, .always, [F.MAP_NODE_NODE, F.MAP_NODE_VALID]⟩,
  ⟨173, 0x5800018, 0, 1, 0, 1, .always, [F.MAP_LCFG_REKEY_LOG]⟩,
  ⟨174, 0x5800020, 0, 1, 0, 1, .always, [F.MAP_RSTAT_UNROUTABLE, F.MAP_RSTAT_BADMSG]⟩,
  ⟨175, 0x5800028, 0, 1, 0, 1, .always, [F.MAP_KEEP_KEEPER, F.MAP_KEEP_LEAD, F.MAP_KEEP_KSET, F.MAP_KEEP_LEAD_NODE, F.MAP_KEEP_TERM]⟩,
  ⟨176, 0x5800030, 0, 1, 0, 1, .always, [F.MAP_KLOG_COMMITTED]⟩,
  ⟨177, 0x5810000, 16, 16384, 0, 1, .always, [F.MAPR_RMASK0_LINKS_LO]⟩,
  ⟨178, 0x5810008, 16, 16384, 0, 1, .always, [F.MAPR_RMASK1_LINKS_HI, F.MAPR_RMASK1_LOCAL, F.MAPR_RMASK1_VALID]⟩,
  ⟨179, 0x5850000, 16, 16384, 0, 1, .always, [F.MAPM_RMASK0_LINKS_LO]⟩,
  ⟨180, 0x5850008, 16, 16384, 0, 1, .always, [F.MAPM_RMASK1_LINKS_HI, F.MAPM_RMASK1_LOCAL, F.MAPM_RMASK1_VALID]⟩]

/-- The registers of slot k of the 32 slots of 4 MiB (R573); an unassigned slot holds none. -/
def slotRegs : Nat → List RegDef
  | 0 => regsSYS
  | 1 => regsPWR
  | 2 => regsCLK
  | 3 => regsTMR
  | 4 => regsRAS
  | 5 => regsSEC
  | 6 => regsSHP
  | 7 => regsPTR
  | 8 => regsXLT
  | 9 => regsRNG
  | 10 => regsFN
  | 11 => regsLSH
  | 12 => regsKNL
  | 13 => regsTIR
  | 14 => regsEPC
  | 15 => regsPAK
  | 16 => regsLNK
  | 17 => regsCXP
  | 18 => regsFLS
  | 19 => regsDRM
  | 20 => regsRTV
  | 21 => regsTRK
  | 22 => regsMAP
  | _ => []

/-- Register numbers, for the writes and reads that do more than set a field. -/
def Reg.SYS_ID : Nat := 0
def Reg.SYS_VARIANT : Nat := 1
def Reg.SYS_LOCK : Nat := 2
def Reg.SYS_XSTAT : Nat := 3
def Reg.SYS_STRAP : Nat := 4
def Reg.PWR_SEQ : Nat := 5
def Reg.PWR_OFFREQ : Nat := 6
def Reg.PWR_CAP : Nat := 7
def Reg.PWR_THR : Nat := 8
def Reg.PWR_IN : Nat := 9
def Reg.PWR_ENERGY : Nat := 10
def Reg.PWR_TEMP : Nat := 11
def Reg.PWR_DCTL : Nat := 12
def Reg.CLK_SPREAD : Nat := 13
def Reg.CLK_STAT : Nat := 14
def Reg.TMR_NOW : Nat := 15
def Reg.RAS_CFG : Nat := 16
def Reg.RAS_TMO : Nat := 17
def Reg.RAS_STAT : Nat := 18
def Reg.RAS_RESET : Nat := 19
def Reg.RAS_FENCE : Nat := 20
def Reg.RAS_FMASK : Nat := 21
def Reg.RAS_FLMASK : Nat := 22
def Reg.RAS_MCFG : Nat := 23
def Reg.RAS_LKCFG : Nat := 24
def Reg.RAS_CNT : Nat := 25
def Reg.RAS_LEYE : Nat := 26
def Reg.RAS_DMARG : Nat := 27
def Reg.RAS_VMARG : Nat := 28
def Reg.SEC_MBCMD : Nat := 29
def Reg.SEC_MBSTAT : Nat := 30
def Reg.SEC_FWSTAT : Nat := 31
def Reg.SEC_SVN : Nat := 32
def Reg.SEC_FUSE : Nat := 33
def Reg.SEC_DBG : Nat := 34
def Reg.SEC_SESS : Nat := 35
def Reg.SEC_LKFAIL : Nat := 36
def Reg.SEC_MBDATA : Nat := 37
def Reg.SEC_TDI : Nat := 38
def Reg.SHP_CTL : Nat := 39
def Reg.SHP_STAT : Nat := 40
def Reg.SHP_STEPS : Nat := 41
def Reg.SHP_CYCLE : Nat := 42
def Reg.SHP_WDOG : Nat := 43
def Reg.SHP_TRPTR : Nat := 44
def Reg.SHP_THR : Nat := 45
def Reg.SHP_CLSTAT : Nat := 46
def Reg.SHP_TPROBE : Nat := 47
def Reg.SHP_TDATA0 : Nat := 48
def Reg.SHP_TDATA1 : Nat := 49
def Reg.PTR_STAT : Nat := 50
def Reg.PTR_EVICT : Nat := 51
def Reg.PTR_MCAST : Nat := 52
def Reg.PTR_STALE : Nat := 53
def Reg.PTR_ASEQ : Nat := 54
def Reg.PTR_POISON : Nat := 55
def Reg.PTR_PROBE : Nat := 56
def Reg.PTR_PDATA0 : Nat := 57
def Reg.PTR_PDATA1 : Nat := 58
def Reg.PTR_SGRP : Nat := 59
def Reg.XLT_CFG : Nat := 60
def Reg.XLT_STAT : Nat := 61
def Reg.XLT_GEN : Nat := 62
def Reg.XLT_MISS : Nat := 63
def Reg.XLT_SCENT : Nat := 64
def Reg.XLT_WBASE : Nat := 65
def Reg.XLT_WCTL : Nat := 66
def Reg.XLT_WINFLT : Nat := 67
def Reg.XLT_WREJ : Nat := 68
def Reg.RNG_BIND : Nat := 69
def Reg.RNG_CTL : Nat := 70
def Reg.RNG_DBASE : Nat := 71
def Reg.RNG_CBASE : Nat := 72
def Reg.RNG_BAYS : Nat := 73
def Reg.RNG_PTR : Nat := 74
def Reg.RNG_CPTR : Nat := 75
def Reg.RNG_IRQ : Nat := 76
def Reg.RNG_HOLD : Nat := 77
def Reg.RNG_CNT : Nat := 78
def Reg.FN_CTL : Nat := 79
def Reg.FN_STAT : Nat := 80
def Reg.FN_VEC : Nat := 81
def Reg.FN_IRQF : Nat := 82
def Reg.FN_ICNT : Nat := 83
def Reg.FN_FRBASE : Nat := 84
def Reg.FN_FRCTL : Nat := 85
def Reg.FN_FRPTR : Nat := 86
def Reg.FN_FROVF : Nat := 87
def Reg.FN_XLT_ROOT : Nat := 88
def Reg.LSH_CFG : Nat := 89
def Reg.LSHF_RATE : Nat := 90
def Reg.LSHF_WGT : Nat := 91
def Reg.LSHF_TOK : Nat := 92
def Reg.LSHF_BYTES : Nat := 93
def Reg.LSHF_OPS : Nat := 94
def Reg.LSHS_RATE : Nat := 95
def Reg.LSHS_WGT : Nat := 96
def Reg.LSHS_TOK : Nat := 97
def Reg.LSHS_BYTES : Nat := 98
def Reg.LSHS_OPS : Nat := 99
def Reg.LSHP_RATE : Nat := 100
def Reg.LSHP_WGT : Nat := 101
def Reg.LSHP_TOK : Nat := 102
def Reg.LSHP_BYTES : Nat := 103
def Reg.LSHP_OPS : Nat := 104
def Reg.LSH_PMOD : Nat := 105
def Reg.KNL_RANGE : Nat := 106
def Reg.KNL_BIND : Nat := 107
def Reg.KNL_INFLT : Nat := 108
def Reg.KNL_REJECT : Nat := 109
def Reg.TIR_REGION : Nat := 110
def Reg.TIR_CTL : Nat := 111
def Reg.TIR_DLCFG : Nat := 112
def Reg.TIR_OCC : Nat := 113
def Reg.TIR_RET : Nat := 114
def Reg.TIR_TT : Nat := 115
def Reg.TIR_KPIN : Nat := 116
def Reg.TIR_KLC : Nat := 117
def Reg.TIR_KSHD : Nat := 118
def Reg.TIR_KUNDO : Nat := 119
def Reg.TIR_KFRATE : Nat := 120
def Reg.TIR_KFBAL : Nat := 121
def Reg.TIR_KFPROG : Nat := 122
def Reg.EPC_CFG : Nat := 123
def Reg.EPC_EPOCH : Nat := 124
def Reg.EPC_LAST : Nat := 125
def Reg.EPC_STAT : Nat := 126
def Reg.EPC_CNT : Nat := 127
def Reg.EPC_UNDO : Nat := 128
def Reg.PAK_CFG : Nat := 129
def Reg.PAK_STAT : Nat := 130
def Reg.PAK_DELTA : Nat := 131
def Reg.PAK_RBLD : Nat := 132
def Reg.PAK_MEMB : Nat := 133
def Reg.LNK_CTL : Nat := 134
def Reg.LNK_STAT : Nat := 135
def Reg.LNK_ERR : Nat := 136
def Reg.LNK_KEY : Nat := 137
def Reg.LNK_TXCTR : Nat := 138
def Reg.LNK_RXCTR : Nat := 139
def Reg.LNK_SLOTS : Nat := 140
def Reg.CXP_CFG : Nat := 141
def Reg.CXP_LSTAT : Nat := 142
def Reg.CXP_MEMCNT : Nat := 143
def Reg.CXP_PCNT : Nat := 144
def Reg.CXP_DCSTAT : Nat := 145
def Reg.CXP_DCREG : Nat := 146
def Reg.CXP_SPID : Nat := 147
def Reg.FLS_WEAR : Nat := 148
def Reg.FLS_SPACE : Nat := 149
def Reg.FLS_QUEUE : Nat := 150
def Reg.DRM_SALT : Nat := 151
def Reg.RTV_CFG : Nat := 152
def Reg.RTV_RSTAT : Nat := 153
def Reg.RTV_COMMIT : Nat := 154
def Reg.RTV_RPROBE : Nat := 155
def Reg.RTV_RDATA0 : Nat := 156
def Reg.RTV_RDATA1 : Nat := 157
def Reg.RTV_RDATA2 : Nat := 158
def Reg.RTV_RDATA3 : Nat := 159
def Reg.RTV_FIDX : Nat := 160
def Reg.RTV_FDROP : Nat := 161
def Reg.RTV_FROWS : Nat := 162
def Reg.RTV_FAPPLY : Nat := 163
def Reg.TRK_CFG : Nat := 164
def Reg.TRK_CTX : Nat := 165
def Reg.TRK_FQRY : Nat := 166
def Reg.TRK_FEXP : Nat := 167
def Reg.TRK_FPART : Nat := 168
def Reg.TRK_FMUT : Nat := 169
def Reg.MAP_EPOCH : Nat := 170
def Reg.MAP_STAT : Nat := 171
def Reg.MAP_NODE : Nat := 172
def Reg.MAP_LCFG : Nat := 173
def Reg.MAP_RSTAT : Nat := 174
def Reg.MAP_KEEP : Nat := 175
def Reg.MAP_KLOG : Nat := 176
def Reg.MAPR_RMASK0 : Nat := 177
def Reg.MAPR_RMASK1 : Nat := 178
def Reg.MAPM_RMASK0 : Nat := 179
def Reg.MAPM_RMASK1 : Nat := 180
def Reg.SHP_GMASK : Nat := 181
def Reg.PTR_GMASK : Nat := 182
def Reg.RNG_GMASK : Nat := 183
def Reg.FN_GMASK : Nat := 184
def Reg.KNL_GMASK : Nat := 185
def Reg.LNK_GMASK : Nat := 186
def Reg.FLS_GMASK : Nat := 187
def Reg.DRM_GMASK : Nat := 188

end Sys2Proof.Machine
end

