-- ==== Sys2Proof/Machine/Ops.lean ====
section
/-! DEFINITION. The shared operations: sparse tables, register fields, routing (spec/02 R66, R67; spec/14 R461 to R465),
outputs, bytes and words, and the form every meaning takes. -/
namespace Sys2Proof.Machine

/-! ### Sparse tables -/

/-- The entry of key k. -/
def tget {α : Type} (t : Tbl α) (k : Nat) : Option α :=
  match t with
  | [] => none
  | (j, v) :: r => if j = k then some v else tget r k

/-- Remove key k. -/
def tdel {α : Type} (t : Tbl α) (k : Nat) : Tbl α :=
  match t with
  | [] => []
  | (j, v) :: r => if j = k then tdel r k else (j, v) :: tdel r k

/-- Set key k, keeping the keys in rising order. -/
def tset {α : Type} (t : Tbl α) (k : Nat) (v : α) : Tbl α :=
  match t with
  | [] => [(k, v)]
  | (j, u) :: r => if k < j then (k, v) :: (j, u) :: r else if j = k then (k, v) :: r else (j, u) :: tset r k v

/-- Set key k to v, where d is what an unlisted key reads as: writing d removes the entry. -/
def tput {α : Type} [DecidableEq α] (d : α) (t : Tbl α) (k : Nat) (v : α) : Tbl α :=
  if v = d then tdel t k else tset t k v

/-- Insert into a rising list of numbers. -/
def sadd (l : List Nat) (k : Nat) : List Nat :=
  match l with
  | [] => [k]
  | j :: r => if k < j then k :: j :: r else if j = k then j :: r else j :: sadd r k

/-! ### Register fields -/

/-- Where field f of instance i has its home. -/
def Fld.key (f : Fld) (i : Nat) : Nat := (i * 256 + f.reg) * 64 + f.lo

/-- The value of field f of instance i, at the field's width. -/
def Dev.rd (d : Dev) (f : Fld) (i : Nat := 0) : Nat := (tget d.regs (f.key i)).getD f.rst % 2 ^ f.w

/-- Set field f of instance i: the value keeps the field's width. -/
def Dev.wr (d : Dev) (f : Fld) (i : Nat) (v : Nat) : Dev :=
  { d with regs := tput f.rst d.regs (f.key i) (v % 2 ^ f.w) }

/-- Add n to a counter that saturates at its width. -/
def Dev.inc (d : Dev) (f : Fld) (i : Nat) (n : Nat := 1) : Dev :=
  d.wr f i (min (d.rd f i + n) (2 ^ f.w - 1))

/-- Add n to a count that wraps at its width. -/
def Dev.bump (d : Dev) (f : Fld) (i : Nat) (n : Nat := 1) : Dev := d.wr f i (d.rd f i + n)

/-- Take n from a count, not below 0. -/
def Dev.dec (d : Dev) (f : Fld) (i : Nat) (n : Nat := 1) : Dev := d.wr f i (d.rd f i - n)

/-- Bit b of field f of instance i. -/
def Dev.bitAt (d : Dev) (f : Fld) (i b : Nat) : Bool := bit (d.rd f i) b

/-- Set or clear bit b of field f of instance i. -/
def Dev.setBit (d : Dev) (f : Fld) (i b : Nat) (on : Bool) : Dev :=
  let v := d.rd f i
  let cleared := if bit v b then v - 2 ^ b else v
  d.wr f i (if on then cleared + 2 ^ b else cleared)

/-! ### Routing -/

/-- The links of a 96-bit mask that are UP, ascending (R462). -/
def Dev.upLinks (d : Dev) (mask : Nat) : List Nat :=
  (List.range 96).filter fun i => bit mask i && d.rd F.LNK_STAT_STATE i = 4 && !((tget d.lnk i).getD {}).retiring

/-- The eligible links toward a node: none when its entry is not VALID. -/
def Dev.eligible (d : Dev) (node : Nat) : List Nat :=
  if d.rd F.MAPR_RMASK1_VALID node = 1 then
    d.upLinks (d.rd F.MAPR_RMASK0_LINKS_LO node + 2 ^ 64 * d.rd F.MAPR_RMASK1_LINKS_HI node)
  else []

/-- One byte into the CRC-16 of R66, most significant bit first. -/
def crcByte : Nat → Nat → Nat → Nat
  | 0, crc, _ => crc
  | k + 1, crc, b =>
    let top := bit crc 15 != bit b 7
    let crc := crc * 2 % 65536
    crcByte k (if top then crc ^^^ 0x1021 else crc) (b * 2 % 256)

/-- The CRC-16 of bytes in order. -/
def crc16 (bs : List Nat) : Nat := bs.foldl (fun c b => crcByte 8 c b) 0

/-- The path hash of R66: offset[49:12], destination node, source node, most significant byte first. -/
def pathHash (off dst src : Nat) : Nat :=
  let o := bits off 12 38
  crc16 [o / 2 ^ 32, o / 2 ^ 24 % 256, o / 2 ^ 16 % 256, o / 2 ^ 8 % 256, o % 256,
    dst / 256, dst % 256, src / 256, src % 256]

/-- The link R66 chooses among the eligible ones. -/
def chooseLink (links : List Nat) (off dst src : Nat) : Option Nat :=
  if links.isEmpty then none else links[pathHash off dst src % links.length]?

/-- The VC of a message type (R459). -/
def vcOf (mtype : Nat) : Nat :=
  if mtype < 0x10 then 0 else if mtype < 0x18 then 4 else if mtype < 0x20 then 5 else if mtype < 0x28 then 2
  else if mtype < 0x30 then 3 else if mtype < 0x38 || mtype = 0x42 then 1 else if mtype < 0x40 then 6 else 7

/-- Is a message type defined (R459)? -/
def mtypeKnown (t : Nat) : Bool :=
  [0x01, 0x02, 0x03, 0x04, 0x05, 0x06, 0x07, 0x08, 0x09, 0x10, 0x11, 0x18, 0x19, 0x20, 0x21, 0x22, 0x28, 0x29, 0x30, 0x31,
   0x32, 0x33, 0x34, 0x35, 0x36, 0x38, 0x39, 0x3A, 0x3B, 0x40, 0x41, 0x42].contains t

/-- Does a message type carry a parameter or mask slot (R459)? -/
def hasParam (t : Nat) : Bool := [0x06, 0x08, 0x09, 0x10, 0x28, 0x29, 0x38, 0x39, 0x3A, 0x3B, 0x40, 0x41].contains t

/-- The slots of a message: header, parameter slot, payload (R458). -/
def msgSlots (m : Msg) : Nat := 1 + (if hasParam m.mtype then 1 else 0) + (m.payload.length + 15) / 16

/-- What a link keeps. -/
def Dev.lk (d : Dev) (i : Nat) : LinkSt := (tget d.lnk i).getD {}

/-- Set it. -/
def Dev.setLk (d : Dev) (i : Nat) (l : LinkSt) : Dev := { d with lnk := tput {} d.lnk i l }

/-- Put a message into a link's queue. -/
def Dev.enqueue (d : Dev) (i : Nat) (m : Msg) : Dev := let l := d.lk i; d.setLk i { l with txq := l.txq ++ [m] }

/-- The links of a multicast group's entry that are UP (R464). -/
def Dev.groupLinks (d : Dev) (g : Nat) : List Nat :=
  if d.rd F.MAPM_RMASK1_VALID g = 1 then
    d.upLinks (d.rd F.MAPM_RMASK0_LINKS_LO g + 2 ^ 64 * d.rd F.MAPM_RMASK1_LINKS_HI g)
  else []

/-- The switch takes a message of this module: to its own node over the local port, to the link R66 chooses, or to the tree
of a group (R461 to R464); one it cannot deliver is counted and dropped (R465). DEDUCED (log 36). -/
def Dev.switch (d : Dev) (m : Msg) : Dev :=
  if m.grp then (d.groupLinks m.dst).foldl (fun d i => d.enqueue i m) d
  else if m.dst = d.rd F.MAP_NODE_NODE then d
  else match chooseLink (d.eligible m.dst) m.off m.dst m.src with
    | some i => d.enqueue i m
    | none => d.inc F.MAP_RSTAT_UNROUTABLE 0

/-! ### Outputs -/

/-- Show the outside one more thing; a message also goes to the switch. DESIGN CHOICE (log 15). DEDUCED (log 36). -/
def Dev.emit (d : Dev) (o : Out) : Dev :=
  let d := { d with out := d.out ++ [o] }
  match o with
  | .msg m => d.switch m
  | _ => d

/-- Show the outside several things, in order. -/
def Dev.emits (d : Dev) (os : List Out) : Dev := os.foldl (fun d o => d.emit o) d

/-- Send a KEEP message: nothing while MAP_NODE.VALID is 0 (R474). -/
def Dev.keep (d : Dev) (dst : Nat) (m : KeepMsg) : Dev := if d.rd F.MAP_NODE_VALID = 1 then d.emit (.keep dst m) else d

/-- The keepers of the region as this module's records name them, ascending (R582). -/
def Dev.keepers (d : Dev) : List Nat := d.map.keepers

/-- Send to the lead keeper last known; while none is known, to the first keeper of the records, which passes it on; nothing
when this module knows no keeper (R582). -/
def Dev.toLead (d : Dev) (m : KeepMsg) : Dev :=
  match d.kp.lead.orElse fun _ => d.keepers.head? with
  | some n => d.keep n m
  | none => d

/-- Propose a change. -/
def Dev.propose (d : Dev) (ch : Change) : Dev := d.toLead (.propose ch)

/-! ### Bytes and words -/

/-- The low n bytes of a value, least significant first (R13). -/
def leBytes (n v : Nat) : Bytes :=
  match n with
  | 0 => []
  | k + 1 => BitVec.ofNat 8 v :: leBytes k (v / 256)

/-- The value of bytes, least significant first (R13). -/
def leNat (b : Bytes) : Nat :=
  match b with
  | [] => 0
  | x :: r => x.toNat + 256 * leNat r

/-- The first n bytes of a run, padded with zeros when it is shorter. -/
def takeBytes (n : Nat) (b : Bytes) : Bytes :=
  match n, b with
  | 0, _ => []
  | k + 1, [] => 0 :: takeBytes k []
  | k + 1, x :: r => x :: takeBytes k r

/-- The signed value of the low w bits. -/
def toSigned (w v : Nat) : Int :=
  let u := v % 2 ^ w
  if u < 2 ^ (w - 1) then (u : Int) else (u : Int) - 2 ^ w

/-- The two's complement of an integer in w bits. -/
def ofSigned (w : Nat) (x : Int) : Nat := (x % (2 ^ w : Int)).toNat

/-- A difference modulo 2³², as ring counts are compared (R151). -/
def sub32 (a b : Nat) : Nat := (a + 2 ^ 32 - b % 2 ^ 32) % 2 ^ 32

/-- Quotient rounded up. -/
def ceilDiv (a b : Nat) : Nat := (a + b - 1) / b

/-- Replace the elements that pass. -/
def mapIf (p : α → Bool) (f : α → α) (l : List α) : List α := l.map fun x => if p x then f x else x

/-! ### Who reaches the register spaces -/

/-- Does PF0 software reach the register spaces: is the CXL link up (R574)? DEDUCED (log 75). -/
def Dev.pf0Up (d : Dev) : Bool := d.rd F.CXP_LSTAT_UP 0 = 1

/-- Does a function's BAR exist on CXL.io: PF0's BAR2, or a VF's BAR0 while VF Enable is set and the VF is below NumVFs (R434)? DEDUCED (log 75). -/
def Dev.fnUp (d : Dev) (f : Nat) : Bool := d.pf0Up && (f = 0 || (d.vfEnable && f ≤ min d.numVfs 512))

/-! ### The form of a meaning -/

/-- What a meaning knows beside the block: the ordering code, the lock and the timer, none of which it changes. -/
structure Cx where
  variant : Variant
  lock    : Bool
  tmr     : Nat
  deriving DecidableEq, Repr

/-- The context of a state. -/
def State.cx (s : State) : Cx := ⟨s.variant, s.lock, s.tmr⟩

/-- A step that changes the block and nothing else. -/
def State.run (s : State) (f : Cx → Dev → Dev) : Host.Outcome State Fault Refusal :=
  .next { s with dev := f s.cx s.dev }

end Sys2Proof.Machine
end

