-- ==== Sys2Proof/Machine/Flags.lean ====
section
/-! DEFINITION. Arithmetic of the lanes, the codec and the home atomic units: exact values, one rounding to nearest with
ties to even, kept subnormals, overflow to infinity, canonical NaNs (spec/03 R95, spec/06 R198, spec/07 R240 to R244),
and the integer operations with their wrapping and saturating rules (R94). -/
namespace Sys2Proof.Machine

/-- A binary format: exponent and fraction bits. -/
structure Fmt where
  eb : Nat
  mb : Nat
  deriving DecidableEq, Repr

def fp32 : Fmt := ⟨8, 23⟩
def fp16 : Fmt := ⟨5, 10⟩
def bf16 : Fmt := ⟨8, 7⟩

/-- Width in bits. -/
def Fmt.w (f : Fmt) : Nat := 1 + f.eb + f.mb

/-- The canonical quiet NaN (R95, R243). -/
def Fmt.nan (f : Fmt) : Nat := (2 ^ (f.eb + 1) - 1) * 2 ^ (f.mb - 1)

/-- Infinity of a sign. -/
def Fmt.inf (f : Fmt) (neg : Bool) : Nat := (2 ^ f.eb - 1) * 2 ^ f.mb + if neg then 2 ^ (f.eb + f.mb) else 0

/-- An unpacked number: NaN, an infinity, or (−1)^neg · m · 2^e. -/
inductive FVal
  | nan
  | inf (neg : Bool)
  | fin (neg : Bool) (m : Nat) (e : Int)
  deriving DecidableEq, Repr

/-- The value a bit pattern stands for. -/
def Fmt.decode (f : Fmt) (b : Nat) : FVal :=
  let neg := bit b (f.eb + f.mb)
  let ex := bits b f.mb f.eb
  let fr := bits b 0 f.mb
  let bias : Int := 2 ^ (f.eb - 1) - 1
  if ex = 2 ^ f.eb - 1 then if fr = 0 then .inf neg else .nan
  else if ex = 0 then .fin neg fr (1 - bias - f.mb)
  else .fin neg (fr + 2 ^ f.mb) (ex - bias - f.mb)

/-- x · 2^k for k of either sign, as numerator and denominator over the ones given. -/
def scale2 (num den : Nat) (k : Int) : Nat × Nat :=
  if 0 ≤ k then (num * 2 ^ k.toNat, den) else (num, den * 2 ^ (-k).toNat)

/-- Round num / den to the nearest integer, ties to even. -/
def rneDiv (num den : Nat) : Nat :=
  let q := num / den
  let r := num % den
  if 2 * r > den || (2 * r = den && q % 2 = 1) then q + 1 else q

/-- Round num / den · 2^e to the format, to nearest with ties to even; subnormals kept, overflow to infinity. -/
def Fmt.encodeRat (f : Fmt) (neg : Bool) (num den : Nat) (e : Int) : Nat :=
  let s := if neg then 2 ^ (f.eb + f.mb) else 0
  if num = 0 then s
  else
    let bias : Int := 2 ^ (f.eb - 1) - 1
    let emin : Int := 1 - bias - f.mb
    let est : Int := (Nat.log2 num : Int) - Nat.log2 den
    let (a, b) := scale2 num den (-est)
    let lg : Int := (if a < b then est - 1 else est) + e
    let u : Int := max (lg - f.mb) emin
    let (n, d) := scale2 num den (e - u)
    let enc := (u - emin).toNat * 2 ^ f.mb + rneDiv n d
    if enc < (2 ^ f.eb - 1) * 2 ^ f.mb then s + enc else f.inf neg

/-- Round an unpacked number to the format; every NaN becomes the canonical one. -/
def Fmt.encode (f : Fmt) : FVal → Nat
  | .nan => f.nan
  | .inf n => f.inf n
  | .fin n m e => f.encodeRat n m 1 e

/-- Magnitude with sign as an integer over 2^e. -/
def sgn (neg : Bool) (m : Nat) : Int := if neg then -(m : Int) else m

/-- The exact sum. -/
def FVal.add : FVal → FVal → FVal
  | .nan, _ => .nan
  | _, .nan => .nan
  | .inf a, .inf b => if a = b then .inf a else .nan
  | .inf a, _ => .inf a
  | _, .inf b => .inf b
  | .fin n m e, .fin n' m' e' =>
    let lo := min e e'
    let x : Int := sgn n m * 2 ^ (e - lo).toNat + sgn n' m' * 2 ^ (e' - lo).toNat
    if x = 0 then .fin (n && n') 0 lo else .fin (decide (x < 0)) x.natAbs lo

/-- The exact product. -/
def FVal.mul : FVal → FVal → FVal
  | .nan, _ => .nan
  | _, .nan => .nan
  | .inf a, .inf b => .inf (a != b)
  | .inf a, .fin n m _ => if m = 0 then .nan else .inf (a != n)
  | .fin n m _, .inf a => if m = 0 then .nan else .inf (a != n)
  | .fin n m e, .fin n' m' e' => .fin (n != n') (m * m') (e + e')

/-- The negation. -/
def FVal.neg : FVal → FVal
  | .nan => .nan
  | .inf a => .inf !a
  | .fin n m e => .fin (!n) m e

/-- The order of two numbers, −0 below +0: is the first below the second? NaN is below nothing. -/
def FVal.lt : FVal → FVal → Bool
  | .nan, _ => false
  | _, .nan => false
  | .inf a, .inf b => a && !b
  | .inf a, _ => a
  | _, .inf b => !b
  | .fin n m e, .fin n' m' e' =>
    let lo := min e e'
    let x : Int := sgn n m * 2 ^ (e - lo).toNat
    let y : Int := sgn n' m' * 2 ^ (e' - lo).toNat
    if x = y then n && !n' else decide (x < y)

/-- The larger; NaN when either is NaN. -/
def FVal.max (a b : FVal) : FVal :=
  if a = .nan || b = .nan then .nan else if a.lt b then b else a

/-- The smaller; NaN when either is NaN. -/
def FVal.min (a b : FVal) : FVal :=
  if a = .nan || b = .nan then .nan else if b.lt a then b else a

/-- Is the number finite? -/
def FVal.finite : FVal → Bool
  | .fin _ _ _ => true
  | _ => false

/-- FP32 operations on bit patterns: each rounds its exact result once. -/
def fadd (a b : Nat) : Nat := fp32.encode ((fp32.decode a).add (fp32.decode b))
def fmul (a b : Nat) : Nat := fp32.encode ((fp32.decode a).mul (fp32.decode b))
def ffma (a b acc : Nat) : Nat := fp32.encode (((fp32.decode a).mul (fp32.decode b)).add (fp32.decode acc))
def fsub (a b : Nat) : Nat := fp32.encode ((fp32.decode a).add (fp32.decode b).neg)
def fmaxBits (f : Fmt) (a b : Nat) : Nat := f.encode ((f.decode a).max (f.decode b))
def fminBits (f : Fmt) (a b : Nat) : Nat := f.encode ((f.decode a).min (f.decode b))

/-- a / b rounded once to FP32. -/
def fdiv (a b : Nat) : Nat :=
  match fp32.decode a, fp32.decode b with
  | .nan, _ => fp32.nan
  | _, .nan => fp32.nan
  | .inf _, .inf _ => fp32.nan
  | .inf n, .fin n' _ _ => fp32.inf (n != n')
  | .fin n _ _, .inf n' => fp32.encodeRat (n != n') 0 1 0
  | .fin n m e, .fin n' m' e' =>
    if m' = 0 then (if m = 0 then fp32.nan else fp32.inf (n != n')) else fp32.encodeRat (n != n') m m' (e - e')

/-- The integer square root of n, bit by bit from bit k − 1 down. -/
def isqrtFrom (n : Nat) : Nat → Nat → Nat
  | 0, r => r
  | k + 1, r => isqrtFrom n k (if (r + 2 ^ k) * (r + 2 ^ k) ≤ n then r + 2 ^ k else r)

/-- The square root rounded once to FP32: an exact integer root of the scaled significand with a sticky bit. -/
def fsqrt (a : Nat) : Nat :=
  match fp32.decode a with
  | .nan => fp32.nan
  | .inf n => if n then fp32.nan else fp32.inf false
  | .fin n m e =>
    if m = 0 then fp32.encodeRat n 0 1 0
    else if n then fp32.nan
    else
      let (m, e) := if e % 2 = 0 then (m * 2 ^ 60, e - 60) else (m * 2 ^ 61, e - 61)
      let r := isqrtFrom m (Nat.log2 m / 2 + 1) 0
      let sticky := if r * r = m then 0 else 1
      fp32.encodeRat false (2 * r + sticky) 1 (e / 2 - 1)

/-- A small integer as FP32. -/
def ofInt32 (x : Int) : Nat := fp32.encodeRat (decide (x < 0)) x.natAbs 1 0

/-! ### Integers -/

/-- Clamp to the signed range of w bits. -/
def clampS (w : Nat) (x : Int) : Int := max (-(2 ^ (w - 1) : Int)) (min (2 ^ (w - 1) - 1 : Int) x)

/-- Signed saturating addition of w-bit patterns. -/
def addS (w a b : Nat) : Nat := ofSigned w (clampS w (toSigned w a + toSigned w b))

/-- Signed saturating multiplication of w-bit patterns. -/
def mulS (w a b : Nat) : Nat := ofSigned w (clampS w (toSigned w a * toSigned w b))

/-! ### Home atomics (R94, R95) -/

/-- Element width in bytes of an atomic's element type; none for a reserved code. -/
def etyBytes : Nat → Option Nat
  | 0 => some 4
  | 1 => some 8
  | 2 => some 4
  | 3 => some 2
  | 4 => some 2
  | _ => none

/-- The format of a floating-point element type. -/
def etyFmt : Nat → Fmt
  | 3 => fp16
  | 4 => bf16
  | _ => fp32

/-- May the operation take the element type, and a whole line (the table of R94)? -/
def aopValid (aop ety : Nat) (whole : Bool) : Bool :=
  if aop ≤ 10 then ety ≤ 1 && !(aop = 1 && whole) else aop ≤ 13 && 2 ≤ ety && ety ≤ 4

/-- The new value of one element: old value, operand, and the compare value of CAS. -/
def aopElem (aop ety old x cmp : Nat) : Nat :=
  let w := if ety = 1 then 64 else 32
  let f := etyFmt ety
  match aop with
  | 0 => x
  | 1 => if old = cmp then x else old
  | 2 => (old + x) % 2 ^ w
  | 3 => addS w old x
  | 4 => old &&& x
  | 5 => old ||| x
  | 6 => old ^^^ x
  | 7 => if toSigned w x < toSigned w old then x else old
  | 8 => if toSigned w old < toSigned w x then x else old
  | 9 => min old x
  | 10 => max old x
  | 11 => f.encode ((f.decode old).add (f.decode x))
  | 12 => fminBits f old x
  | _ => fmaxBits f old x

/-- The elements of a run of bytes, n bytes each. -/
def elems (n count : Nat) (b : Bytes) : List Nat :=
  match count with
  | 0 => []
  | k + 1 => leNat (b.take n) :: elems n k (b.drop n)

/-- The bytes of elements of n bytes each. -/
def elemBytes (n : Nat) (xs : List Nat) : Bytes := xs.flatMap (leBytes n)

/-- Apply an atomic to the bytes it covers: 64 for a whole line, one element otherwise. -/
def aopBytes (aop ety : Nat) (old operand cmp : Bytes) : Bytes :=
  match etyBytes ety with
  | none => old
  | some n =>
    let k := old.length / n
    elemBytes n (List.zipWith (fun o (x, c) => aopElem aop ety o x c) (elems n k old)
      (List.zip (elems n k (takeBytes old.length operand)) (elems n k (takeBytes old.length cmp))))

end Sys2Proof.Machine
end

