-- ==== Sys2Proof/Machine/Faults.lean ====
section
/-! DEFINITION. Interrupts (spec/12, R404 to R407), fault records and fault rings (spec/05, R175 to R183), the sideband
fault queue and alert mask (spec/18, R567, R568). -/
namespace Sys2Proof.Machine

/-! ### Interrupts -/

/-- Word w of MSI-X entry v of function f; Vector Control's Mask bit is set in an entry nothing has written, as PCIe
resets it. -/
def Dev.msixWord (d : Dev) (f v w : Nat) : Nat :=
  (tget d.msix ((64 * f + v) * 4 + w)).getD (if w = 3 then 1 else 0)

/-- Does the map list node n as serving function f? DESIGN CHOICE (log 18). -/
def Dev.serves (d : Dev) (f n : Nat) : Bool :=
  d.map.fns.any fun r => r.fn == f && r.nodes.contains n

/-- Send an unmasked interrupt (R406). -/
def Dev.sendVec (d : Dev) (f v : Nat) : Dev :=
  let addr := d.msixWord f v 0 + 2 ^ 32 * d.msixWord f v 1
  let data := d.msixWord f v 2
  if d.bitAt F.FN_IRQF_FABRIC f v then
    let node := addr / 2 ^ 50
    if d.serves f node then
      (d.emit (.msg { mtype := 0x09, dst := node, src := d.rd F.MAP_NODE_NODE, off := addr % 2 ^ 50,
                      param := addr + 2 ^ 64 * data })).inc F.FN_ICNT_SENT f
    else d.inc F.FN_ICNT_DROPPED f
  else (d.emit (.msix f v addr data (d.rd F.SEC_TDI_STATE f = 2))).inc F.FN_ICNT_SENT f

/-- Raise local vector v of function f (R404, R406): discarded while MSI-X is disabled, held in the PBA while the entry
or the function is masked, and otherwise sent. DEDUCED (log 94). -/
def Dev.raiseVec (d : Dev) (f v : Nat) : Dev :=
  if v < d.rd F.FN_VEC_COUNT f then
    let ctl := (tget d.msixCtl f).getD 0
    let fab := d.bitAt F.FN_IRQF_FABRIC f v
    if !fab && !bit ctl 0 then d.inc F.FN_ICNT_DROPPED f
    else if bit (d.msixWord f v 3) 0 || (!fab && bit ctl 1) then { d with pba := sadd d.pba (64 * f + v) }
    else d.sendVec f v
  else d

/-! ### Fault records -/

/-- A fault record before it is laid out (R175). -/
structure FRec where
  type : Nat
  cls : Nat
  collar : Nat := 0
  ring : Option Nat := none
  desc : Option (Nat × Nat) := none
  bay : Option (Nat × Nat × Nat) := none
  engine : Nat := 0
  node : Option Nat := none
  w20 : Nat := 0
  w28 : Nat := 0
  w30 : Nat := 0
  w38 : Nat := 0
  deriving DecidableEq, Repr

/-- The function a ring is bound to: its group's collar (R147). -/
def Dev.ringFn (d : Dev) (r : Nat) : Nat := d.rd F.RNG_BIND_COLLAR (r / 8 * 8)

/-- The local index of a ring within its function (R147). -/
def Dev.ringLocal (d : Dev) (r : Nat) : Nat := 8 * d.rd F.RNG_BIND_LGROUP (r / 8 * 8) + r % 8

/-- The global ring of local ring l of function f, if the function holds it (R147). -/
def Dev.globalRing (d : Dev) (f l : Nat) : Option Nat :=
  ((List.range 512).find? fun g => d.rd F.RNG_BIND_BOUND (8 * g) == 1 && d.rd F.RNG_BIND_COLLAR (8 * g) == f &&
    d.rd F.RNG_BIND_LGROUP (8 * g) == l / 8).map fun g => 8 * g + l % 8

/-- The eight words of a fault record (R175, R178). -/
def FRec.words (r : FRec) (d : Dev) (tmr phase : Nat) : List Nat :=
  let ring := r.ring.getD 0
  let lring := match r.ring with
    | some n => d.ringLocal n
    | none => 0
  let (di, dop) := r.desc.getD (0, 0)
  let (b, t, st) := r.bay.getD (0, 0, 0)
  [ r.type + 2 ^ 8 * r.cls + 2 ^ 11 * phase + 2 ^ 12 * (if r.ring.isSome then 1 else 0) +
      2 ^ 13 * (if r.desc.isSome then 1 else 0) + 2 ^ 14 * (if r.bay.isSome then 1 else 0) + 2 ^ 16 * r.collar +
      2 ^ 26 * ring + 2 ^ 38 * lring + 2 ^ 44 * dop,
    di + 2 ^ 32 * b + 2 ^ 37 * t + 2 ^ 40 * st + 2 ^ 56 * r.engine,
    tmr % 2 ^ 48,
    r.node.getD 0 + 2 ^ 14 * (if r.node.isSome then 1 else 0) + 2 ^ 16 * d.rd F.EPC_EPOCH_EPOCH,
    r.w20 % 2 ^ 64, r.w28 % 2 ^ 64, r.w30 % 2 ^ 64, r.w38 % 2 ^ 64 ]

/-- Put a record into the sideband fault queue (R568): dropped and counted when it holds 64. -/
def Dev.sideQueue (d : Dev) (ws : List Nat) : Dev :=
  if d.sideQ.length < 64 then
    { d with sideQ := d.sideQ ++ [ws], alerts := if bit d.alerts 2 then d.alerts else d.alerts + 4 }
  else { d with sideLost := d.sideLost + 1 }

/-- Set a cause of the alert mask (R567). DEDUCED (log 86). -/
def Dev.alert (d : Dev) (b : Nat) : Dev :=
  { d with alerts := if bit d.alerts b then d.alerts else d.alerts + 2 ^ b }

/-- The words of a structure as bytes. -/
def wordBytes (ws : List Nat) : Bytes := ws.flatMap (leBytes 8)

/-- Write the words ws of a record at addr in two parts, the word at offset 0 last (R169): posted writes for HOST, byte
writes of the line for FABRIC. DESIGN CHOICE (log 46). -/
def Dev.putRecord (d : Dev) (f : Nat) (fabric : Bool) (addr : Nat) (ws : List Nat) : Dev :=
  if fabric then
    let n := 8 * ws.length
    let pos := addr % 64
    let msg (m : Nat) : Out := .msg
      { mtype := 0x06, dst := addr / 2 ^ 50, src := d.rd F.MAP_NODE_NODE, off := addr % 2 ^ 50 - pos, collar := 0,
        param := m, payload := takeBytes 64 (List.replicate pos 0 ++ wordBytes ws) }
    d.emits [msg ((2 ^ n - 2 ^ 8) * 2 ^ pos), msg ((2 ^ 8 - 1) * 2 ^ pos)]
  else
    let tee := d.rd F.SEC_TDI_STATE f == 2
    d.emits [.hostWrite f (addr + 8) (ws.drop 1) tee, .hostWrite f addr (ws.take 1) tee]

/-- Is function f's fault ring full for a record of class cls (R179)? -/
def Dev.faultFull (d : Dev) (f cls : Nat) : Bool :=
  let size := 2 ^ d.rd F.FN_FRCTL_SIZE f
  let cap := if f = 0 && cls != 4 then size - 8 else size
  d.rd F.FN_FRCTL_EN f == 0 || cap ≤ sub32 (d.rd F.FN_FRPTR_FTAIL f) (d.rd F.FN_FRPTR_FHEAD f)

/-- Write a record that has room into function f's fault ring, and raise the fault vector (R183). -/
def Dev.faultPut (d : Dev) (f : Nat) (r : FRec) (tmr : Nat) : Dev :=
  let tail := d.rd F.FN_FRPTR_FTAIL f
  let size := 2 ^ d.rd F.FN_FRCTL_SIZE f
  let phase := (tail / size + 1) % 2
  let addr := d.rd F.FN_FRBASE_ADDR f * 2 ^ 12 + tail % size * 64
  let fab := d.rd F.FN_FRCTL_PLACE f == 1
  let d1 := if !fab && d.hostDisc.contains f then d
            else d.putRecord f fab addr (r.words d tmr phase)
  (d1.bump F.FN_FRPTR_FTAIL f).raiseVec f (d.rd F.FN_FRCTL_VECTOR f)

/-- Lose a record that meets a full ring (R179): LOST, the ring's FAULT_STALL, and one FAULT_OVERFLOW interrupt. -/
def Dev.faultLose (d : Dev) (f : Nat) (r : FRec) : Dev :=
  let first := d.rd F.FN_FROVF_LOST f == 0
  let d := d.inc F.FN_FROVF_LOST f
  let d := match r.ring with
    | some n => d.setBit F.RNG_HOLD_HOLD n 0 true
    | none => d
  if first then d.raiseVec f (d.rd F.FN_FRCTL_VECTOR f) else d

/-- Which records reach the sideband fault queue (R568): FATAL, and copies of MAP_REJECT and of an AGENT_FAILED of a host. DEDUCED (log 86). -/
def FRec.side (r : FRec) : Bool := r.cls = 4 || r.type = 0x0E || (r.type = 0x0D && bit r.w20 14)

/-- Report a fault (R177, R179, R181): FREC is 1 when the record was written and 2 when it was lost. -/
def Dev.fault2 (d : Dev) (tmr : Nat) (r : FRec) : Dev × Nat :=
  let f := if r.cls ≤ 2 then r.collar else 0
  let d := if r.side then d.sideQueue (r.words d tmr 0) else d
  if d.faultFull f r.cls then (d.faultLose f r, 2) else (d.faultPut f r tmr, 1)

/-- Report a fault no completion follows. -/
def Dev.fault (d : Dev) (tmr : Nat) (r : FRec) : Dev := (d.fault2 tmr r).1

/-- Space has been made in function f's fault ring (R180): the FAULT_OVERFLOW record, LOST back to 0, and every ring of
the function released from FAULT_STALL. -/
def Dev.faultRelease (d : Dev) (f tmr : Nat) : Dev :=
  let lost := d.rd F.FN_FROVF_LOST f
  if lost = 0 || d.faultFull f 2 then d
  else
    let d := d.faultPut f { type := 0x0B, cls := 2, collar := f, w20 := lost } tmr
    let d := d.wr F.FN_FROVF_LOST f 0
    (List.range 64).foldl (fun d l => match d.globalRing f l with
      | some n => d.setBit F.RNG_HOLD_HOLD n 0 false
      | none => d) d

end Sys2Proof.Machine
end

