-- ==== Sys2Proof/Machine/Store.lean ====
section
/-! DEFINITION. The store below the directory: the hash (spec/02, R64, R74), the kennel check (R54), bytes and poison,
the tiers that hold a page (spec/10, R334, R337, R338), undo capture and handed objects (spec/11, R369 to R373, R388). -/
namespace Sys2Proof.Machine

/-! ### Instances of a register that hold something -/

/-- The instances in which field f differs from its reset value, in ascending order. -/
def Dev.instances (d : Dev) (f : Fld) : List Nat :=
  d.regs.filterMap fun (k, _) => if k % (256 * 64) = f.reg * 64 + f.lo then some (k / (256 * 64)) else none

/-! ### The hash -/

/-- x of R64: the granule index XOR the salt. -/
def Dev.hashX (d : Dev) (off : Nat) : Nat := (bits off 8 42) ^^^ d.rd F.DRM_SALT_SALT

/-- h of R64. -/
def foldHash (v : Variant) (x : Nat) : Nat :=
  if v.stacks = 8 then bits x 0 9 ^^^ bits x 9 9 ^^^ bits x 18 9 ^^^ bits x 27 9 ^^^ bits x 36 6
  else bits x 0 8 ^^^ bits x 8 8 ^^^ bits x 16 8 ^^^ bits x 24 8 ^^^ bits x 32 8 ^^^ bits x 40 2

/-- The home stack of an offset (R64). -/
def Dev.stackOf (d : Dev) (v : Variant) (off : Nat) : Nat :=
  foldHash v (d.hashX off) % (if v.stacks = 8 then 8 else 4)

/-- The home directory slice of an offset (R64). -/
def Dev.sliceOf (d : Dev) (v : Variant) (off : Nat) : Nat := foldHash v (d.hashX off) % 16

/-- The line's set within its slice (R74). -/
def Dev.setOf (d : Dev) (off : Nat) : Nat := bits (d.hashX off) 13 13 ^^^ bits (d.hashX off) 0 13

/-- The pseudo-channel group of a page (R328). -/
def Dev.groupOf (d : Dev) (v : Variant) (off : Nat) : Nat := foldHash v (d.hashX off) / 16

/-- The flash channel of a unit (R330). UNVERIFIED (log 83). -/
def Dev.channelOf (d : Dev) (v : Variant) (off : Nat) : Nat := bits (d.hashX off) 8 5 % v.channels

/-! ### The kennel check -/

/-- The kennel entry that holds a store offset and is not FREE. -/
def Dev.kennelAt (d : Dev) (off : Nat) : Option Nat :=
  (d.instances F.KNL_BIND_STATE).find? fun k =>
    d.rd F.KNL_RANGE_BASE k ≤ off / 2 ^ 30 && off / 2 ^ 30 < d.rd F.KNL_RANGE_BASE k + d.rd F.KNL_RANGE_SIZE k

/-- What the kennel check answers. -/
inductive Check
  | ok (k : Nat)
  | revoked (k : Nat)
  | denied (k : Option Nat)
  deriving DecidableEq, Repr

/-- The check of R54 at the point of entry; a reserved collar is rejected before any kennel is looked at (R51), and no
access is served while TIR_CTL.EN is 0 (R327), or once an orderly power-down has come to step 2 (R548). -/
def Dev.kennelCheck (d : Dev) (off collar : Nat) : Check :=
  if 513 ≤ collar && collar ≤ 1022 then .denied none
  else match d.kennelAt off with
    | none => .denied none
    | some k =>
      if d.rd F.TIR_CTL_EN = 0 || d.offStep = 2 || d.offStep = 3 then .denied (some k)
      else if d.rd F.KNL_BIND_STATE k = 2 then .revoked k
      else if d.rd F.KNL_BIND_COLLAR k = collar || collar = 1023 then .ok k
      else .denied (some k)

/-- Count a rejection against the kennel concerned (R55). -/
def Dev.countReject (d : Dev) : Check → Dev
  | .ok _ => d
  | .revoked k => d.inc F.KNL_REJECT_COUNT k
  | .denied (some k) => d.inc F.KNL_REJECT_COUNT k
  | .denied none => d

/-! ### Bytes and poison -/

/-- The byte at a store offset. DEDUCED (log 17). -/
def Dev.byte (d : Dev) (a : Nat) : Byte := (tget d.mem a).getD 0

/-- n bytes from a store offset. -/
def Dev.bytes (d : Dev) (a n : Nat) : Bytes := (List.range n).map fun i => d.byte (a + i)

/-- Write bytes from an offset, all of them. -/
def memPut (t : Tbl Byte) (a : Nat) (b : Bytes) : Tbl Byte :=
  match b with
  | [] => t
  | x :: r => memPut (tput 0 t a x) (a + 1) r

/-- Write the bytes whose bit of the mask is 1, from an offset. -/
def memPutMask (t : Tbl Byte) (a mask : Nat) (b : Bytes) : Tbl Byte :=
  match b with
  | [] => t
  | x :: r => memPutMask (if mask % 2 = 1 then tput 0 t a x else t) (a + 1) (mask / 2) r

/-- Is the line poisoned (R115)? -/
def Dev.poisoned (d : Dev) (line : Nat) : Bool := d.poison.contains line

/-- Write the poison marker into a line: the flag, and 64 zero bytes (R478). -/
def Dev.mark (d : Dev) (line : Nat) : Dev :=
  { d with poison := sadd d.poison line, mem := memPut d.mem (line * 64) (List.replicate 64 0) }

/-- Write the enabled bytes of a line; a write of all 64 clears poison (R116). -/
def Dev.putLine (d : Dev) (line mask : Nat) (data : Bytes) : Dev :=
  { d with mem := memPutMask d.mem (line * 64) mask (takeBytes 64 data),
           poison := if mask = 2 ^ 64 - 1 then d.poison.filter (· ≠ line) else d.poison }

/-- Entries of a byte table within [a, a + n), relative to a. -/
def memSlice (t : Tbl Byte) (a n : Nat) : Tbl Byte :=
  (t.filter fun (k, _) => a ≤ k && k < a + n).map fun (k, v) => (k - a, v)

/-- A byte table with [a, a + n) emptied. -/
def memClear (t : Tbl Byte) (a n : Nat) : Tbl Byte := t.filter fun (k, _) => k < a || a + n ≤ k

/-- A byte table with [a, a + n) replaced by the relative entries s. -/
def memRestore (t : Tbl Byte) (a n : Nat) (s : Tbl Byte) : Tbl Byte :=
  s.foldl (fun t (k, v) => if k < n then tput 0 t (a + k) v else t) (memClear t a n)

/-! ### Handed objects (R388) -/

/-- The key of a handed object's generation. -/
def handKey (kind object : Nat) : Nat := object * 16 + kind

/-- Offer an object to a node under the next generation: HAND OFFER, and the object is in HANDING. -/
def Dev.offer (d : Dev) (c : Cx) (kind object dst : Nat) : Dev :=
  let g := (tget d.gens (handKey kind object)).getD 0 + 1
  let d := { d with gens := tset d.gens (handKey kind object) g,
                    handing := d.handing.filter (fun (h : Handed) => h.kind ≠ kind || h.object ≠ object) ++
                      [(⟨kind, object, g, dst, c.tmr⟩ : Handed)] }
  d.emit (.msg { mtype := 0x3A, dst := dst, src := d.rd F.MAP_NODE_NODE, attr := 0,
                 param := kind + 2 ^ 4 * object + 2 ^ 64 * g })

/-- Is the module in a heel group? -/
def Dev.inGroup (d : Dev) : Bool := d.rd F.EPC_EPOCH_EPOCH ≠ 0

/-- Ask for a transition that is not asked for yet. -/
def Dev.want (d : Dev) (t : Tr) : Dev :=
  if d.wanted.contains t then d else { d with wanted := d.wanted ++ [t] }

/-- The present members of the heel group (R358): of the group in force, those that the map in force, and a committed epoch
that waits to be applied, list and do not mark lost. -/
def Dev.present (d : Dev) : List Nat :=
  let lists (m : MapRecs) (n : Nat) : Bool := m.modules.any fun x => x.node = n && !x.lost
  d.grpNodes.filter fun n => lists d.map n && (match d.nextMap with
    | some m => lists m n
    | none => true)

/-- Send a HEEL message (R460): subtype, E, F or R, cause. -/
def Dev.heelMsg (d : Dev) (sub e f cause dst : Nat) : Dev :=
  d.emit (.msg { mtype := 0x39, dst := dst, src := d.rd F.MAP_NODE_NODE, attr := sub,
                 param := e + 2 ^ 64 * f + 2 ^ 112 * cause })

/-- Send a HEEL message to every present member. -/
def Dev.heelAll (d : Dev) (sub e f cause : Nat) : Dev := d.present.foldl (fun d n => d.heelMsg sub e f cause n) d

/-- The leader starts a rollback to the last committed heel (R380, step 1); the heel it leads ends. -/
def Dev.leadRollback (d : Dev) (cause : Nat) : Dev :=
  if d.rollLead.isSome then d
  else ({ d with rollLead := some { cause := cause }, heelLead := none }).heelAll 8 0 (d.rd F.EPC_LAST_LAST) cause

/-- Request a rollback of the group (R379): the leader starts it, any other member hands the request over. -/
def Dev.askRollback (d : Dev) (c : Cx) (cause : Nat) : Dev :=
  if !d.inGroup then d
  else if d.rd F.EPC_STAT_LEADER = 1 then d.leadRollback cause
  else d.offer c 1 cause (d.rd F.EPC_STAT_LEADER_NODE)

/-- Request a heel of the epoch in force (R363): the leader notes it, unless that heel runs already; any other member hands
the request over. -/
def Dev.askHeel (d : Dev) (c : Cx) : Dev :=
  if d.rd F.EPC_STAT_LEADER = 1 then
    if d.heelLead.any fun h => h.e = d.rd F.EPC_EPOCH_EPOCH then d else { d with heelAsked := true }
  else d.offer c 0 (d.rd F.EPC_EPOCH_EPOCH) (d.rd F.EPC_STAT_LEADER_NODE)

/-! ### Undo capture -/

/-- EPC_CFG.RESERVE in GiB: 0 acts as 1. -/
def Dev.reserveGiB (d : Dev) : Nat := max 1 (d.rd F.EPC_CFG_RESERVE)

/-- EPC_CFG.UNDO_HI in percent: values outside 10 to 95 act as 75. -/
def Dev.undoHi (d : Dev) : Nat :=
  let u := d.rd F.EPC_CFG_UNDO_HI
  if 10 ≤ u && u ≤ 95 then u else 75

/-- Undo frames of the region less the reserve. -/
def Dev.undoFrames (d : Dev) : Nat := (d.rd F.TIR_REGION_UNDO - d.reserveGiB) * 262144

/-- Frames held outside the reserve, and in it. -/
def Dev.undoHeld (d : Dev) : Nat := (d.undo.filter fun u => !u.zero && !u.reserve).length
def Dev.undoReserve (d : Dev) : Nat := (d.undo.filter fun u => !u.zero && u.reserve).length

/-- Undo frames charged to a kennel's quota (R370). -/
def Dev.undoCharged (d : Dev) (k : Nat) : Nat :=
  (d.undo.filter fun u => !u.zero && !u.reserve && !u.parity && d.kennelAt (u.page * 4096) = some k).length

/-- Request a forced heel, once in an epoch (R372). -/
def Dev.forceHeel (d : Dev) (c : Cx) : Dev :=
  let e := d.rd F.EPC_EPOCH_EPOCH
  if d.forcedFor = e then d
  else (({ d with forcedFor := e }).inc F.EPC_CNT_FORCED 0).askHeel c

/-- Save a page's contents before the epoch's first write to it (R369, R370), and ask for a forced heel when the use is
high (R372). No frame in the quota or the reserve: a rollback is requested and the write is never executed (none,
R373). Outside a heel group nothing is captured (R361). DEDUCED (log 29). -/
def Dev.capture (d : Dev) (c : Cx) (page : Nat) (epoch : Nat) (parity : Bool := false) : Dev × Bool :=
  if !d.inGroup || d.undo.any (fun u => u.page = page && u.epoch = epoch) then (d, true)
  else
    let pre := memSlice d.mem (page * 4096) 4096
    let pp := (d.poison.filter fun l => l / 64 = page)
    let zero := pre.isEmpty && pp.isEmpty
    let k := if parity then none else d.kennelAt (page * 4096)
    let quota := match k with
      | some k => 16 * d.rd F.TIR_KUNDO_QUOTA k
      | none => 0
    let use := match k with
      | some k => d.undoCharged k
      | none => 0
    let ent : Undo := { page := page, epoch := epoch, parity := parity, zero := zero, pre := pre, prePoison := pp }
    if zero then ({ d with undo := d.undo ++ [ent] }, true)
    else
      let hi := k.isSome && (quota * d.undoHi ≤ 100 * (use + 1) ||
        100 * (d.undoFrames - d.undoHeld - 1) < d.undoFrames * d.undoHi)
      let fromQuota := decide (use < quota)
      if fromQuota || d.undoReserve < d.reserveGiB * 262144 then
        let d := { d with undo := d.undo ++ [{ ent with reserve := !fromQuota }] }
        (if hi then d.forceHeel c else d, true)
      else (d.askRollback c 4, false)

/-! ### The tiers -/

/-- Line-cache frames of each group (R328, R329). -/
def Dev.lcFrames (d : Dev) (v : Variant) : Nat := d.rd F.TIR_REGION_LC * (if v.stacks = 8 then 8192 else 16384)

/-- The set of a page within its group's line cache (R329), with the group. -/
def Dev.lcSet (d : Dev) (v : Variant) (page : Nat) : Nat × Nat :=
  let s := d.lcFrames v / 16
  (d.groupOf v (page * 4096), if s = 0 then 0 else bits (d.hashX (page * 4096)) 4 38 % s)

/-- The home of a unit. -/
def Dev.unitHome (d : Dev) (unit : Nat) : Option UnitHome := tget d.fmap unit

/-- Is the page served from DRAM: pinned, or in a valid way (R337)? -/
def Dev.resident (d : Dev) (page : Nat) : Bool :=
  d.unitHome (page / 16) = some .pinned || d.lc.any (fun w => w.page = page)

/-- The present blocks of a unit: those with a non-zero byte (R332). -/
def Dev.presentBlocks (d : Dev) (unit : Nat) : List Nat :=
  ((d.mem.filter fun (k, _) => k / 65536 = unit).map fun (k, _) => k / 256 % 256).eraseDups

/-- Codewords that hold p present blocks (R332). -/
def codewords (p : Nat) : Nat := if p ≤ 240 then ceilDiv p 16 else 16

/-- The signed balance of a kennel's flash write budget. -/
def Dev.budget (d : Dev) (k : Nat) : Int := toSigned 64 (d.rd F.TIR_KFBAL_BALANCE k)

/-- Charge codewords to a kennel's flash write budget (R334, R342). -/
def Dev.chargeFlash (d : Dev) (off n : Nat) : Dev :=
  match d.kennelAt off with
  | some k => (d.wr F.TIR_KFBAL_BALANCE k (ofSigned 64 (d.budget k - n))).bump F.TIR_KFPROG_PROGRAMMED k n
  | none => d

/-- Raw slots of a channel (R330). -/
def rawSlots : Nat := 75497472

/-- A free slot of a channel for the next unit: one never used, else one erased. -/
def Dev.newSlot (d : Dev) (ch : Nat) : Nat × Dev :=
  let n := (tget d.slotNext ch).getD 0
  if n < rawSlots then (n, { d with slotNext := tset d.slotNext ch (n + 1) })
  else
    let wear (s : Nat) : Nat := (tget d.erases (ch * 2 ^ 32 + s / Config.blockSlots)).getD 0
    match ((tget d.erased ch).getD []).foldl (fun (b : Option Nat) s => match b with
      | none => some s
      | some x => if wear s < wear x then some s else some x) none with
    | some s => (s, { d with erased := tput [] d.erased ch (((tget d.erased ch).getD []).filter (· ≠ s)) })
    | none => (n, d)

/-- A unit's old slot becomes invalid (R334). -/
def Dev.dropSlot (d : Dev) (ch : Nat) : Option (Nat × Bool) → Dev
  | some (s, _) => ({ d with stale := tset d.stale ch ((tget d.stale ch).getD [] ++ [s]) }).dec F.FLS_SPACE_VALID ch
  | none => d

/-- Program a unit to a new slot with its contents of the moment (R332, R334): the new entry, or none when every block
is zero; the old slot invalid; the kennel's budget charged unless the write is garbage collection's. -/
def Dev.programUnit (d : Dev) (v : Variant) (unit : Nat) (old : Option (Nat × Bool)) (charge : Bool := true) :
    Dev × Option (Nat × Bool) :=
  let ch := d.channelOf v (unit * 65536)
  let p := (d.presentBlocks unit).length
  let d := { d with flash := memRestore d.flash (unit * 65536) 65536 (memSlice d.mem (unit * 65536) 65536),
                    bmCache := d.bmCache.filter (· ≠ unit) }
  if p = 0 then (d.dropSlot ch old, none)
  else
    let (s, d) := d.newSlot ch
    let d := (d.dec F.FLS_SPACE_FREE ch).bump F.FLS_SPACE_VALID ch
    let d := { d with wseq := tset d.wseq ch ((tget d.wseq ch).getD 0 + 1) }
    let d := d.dropSlot ch old
    let d := if charge then d.chargeFlash (unit * 65536) (codewords p) else d
    (d, some (s, decide (p ≤ 240)))

/-- Line-cache frames a kennel holds (TIR_KLC.USE). -/
def Dev.lcUse (d : Dev) (k : Nat) : Nat := (d.lc.filter fun w => d.kennelAt (w.page * 4096) = some k).length

/-- Write back a dirty unit (R334, R338): its dirty pages become clean and its entry names the new slot. -/
def Dev.writeBackUnit (d : Dev) (v : Variant) (unit : Nat) : Dev :=
  let old := match d.unitHome unit with
    | some (.flash s cp) => some (s, cp)
    | _ => none
  let (d, new) := d.programUnit v unit old
  { d with lc := mapIf (fun w => w.page / 16 = unit) (fun w => { w with dirty := false }) d.lc,
           fmap := match new with
             | some (s, cp) => tset d.fmap unit (.flash s cp)
             | none => tdel d.fmap unit }

/-- Is the kennel of a page above its line-cache share (R338, R340)? -/
def Dev.overShare (d : Dev) (page : Nat) : Bool :=
  match d.kennelAt (page * 4096) with
  | some k => decide (16 * d.rd F.TIR_KLC_SHARE k < d.lcUse k)
  | none => true

/-- Pages closed to the line cache because their frame is retired. -/
def lcRetired (d : Dev) (gs : Nat × Nat) : Nat :=
  (d.retired.filter fun r => r = 4 * 2 ^ 60 + gs.1 * 2 ^ 40 + gs.2).length

/-- Give a page a way (R337, R338): the victim of a full set is its least recently used way of a kennel over its share,
else its least recently used way; a dirty victim's unit is written back first. -/
def Dev.allocWay (d : Dev) (v : Variant) (page : Nat) : Dev :=
  let gs := d.lcSet v page
  let inSet := d.lc.filter fun w => d.lcSet v w.page = gs
  let d := if inSet.length + lcRetired d gs < 16 then d
    else match (inSet.find? fun w => d.overShare w.page).orElse (fun _ => inSet.head?) with
      | some w =>
        let d := if w.dirty then d.writeBackUnit v (w.page / 16) else d
        { d with lc := d.lc.filter fun u => u.page ≠ w.page }
      | none => d
  { d with lc := d.lc ++ [({ page := page } : LcWay)] }

/-- Serve an access to a page that is resident or whose unit is ZERO, or fill it at once: a way is most recently used,
and a write makes it dirty (R337). -/
def Dev.touch (d : Dev) (v : Variant) (page : Nat) (write : Bool) : Dev :=
  match d.unitHome (page / 16), tget d.pins (page / 16) with
  | some .pinned, some p =>
    if write && !bit p.dirty (page % 16) then
      { d with pins := tset d.pins (page / 16) { p with dirty := p.dirty + 2 ^ (page % 16) } }
    else d
  | _, _ =>
    let d := if d.lc.any (fun w => w.page = page) then d else d.allocWay v page
    let w : LcWay := match d.lc.find? (fun w => w.page = page) with
      | some w => { w with dirty := w.dirty || write }
      | none => { page := page, dirty := write }
    { d with lc := d.lc.filter (fun (u : LcWay) => u.page ≠ page) ++ [w] }

/-- The non-zero blocks of a unit as flash holds it. -/
def Dev.flashBlocks (d : Dev) (unit : Nat) : List Nat :=
  ((d.flash.filter fun (k, _) => k / 65536 = unit).map fun (k, _) => k / 256 % 256).eraseDups

/-- Codewords a read of a page takes (R333), and the bitmap cache after it: one of an uncompressed unit; of a compressed
one those of the page's present blocks, and codeword 0 for the bitmap when it is not cached. Each I/O die keeps 16,384. -/
def Dev.fillWords (d : Dev) (v : Variant) (page : Nat) : Dev × Nat :=
  let unit := page / 16
  match d.unitHome unit with
  | some (.flash _ true) =>
    let bs := d.flashBlocks unit
    let at_ (b : Nat) : Nat := (bs.filter fun x => decide (x < b)).length / 16
    let cws := (((bs.filter fun b => b / 16 = page % 16).map at_) ++ (if d.bmCache.contains unit then [] else [0])).eraseDups
    let die (u : Nat) : Nat := d.channelOf v (u * 65536) / 8
    let l := d.bmCache.filter (· ≠ unit)
    let mine := l.filter fun u => die u = die unit
    ({ d with bmCache := (if 16384 ≤ mine.length then l.filter (some · ≠ mine.head?) else l) ++ [unit] }, cws.length)
  | _ => (d, 1)

/-- Does an access to the page have to read flash first: a FLASH unit's page in no way (R337)? DEDUCED (log 56). -/
def Dev.misses (d : Dev) (page : Nat) : Bool :=
  !d.resident page && (match d.unitHome (page / 16) with
    | some (.flash _ _) => true
    | _ => false)

/-! ### Writes as the home executes them -/

/-- A write, an atomic, a write-back or a grant of ownership reaches a line: the pending migration of a watched row is
marked DIRTY (R287). -/
def Dev.watchLine (d : Dev) (line : Nat) : Dev :=
  if d.redir.any fun (_, r) => r.pending && r.watch.contains line then
    { d with redir := d.redir.map fun (k, r) =>
        if r.pending && r.watch.contains line then (k, { r with dirty := true }) else (k, r) }
  else d

/-- Write enabled bytes of a line at its home: capture, then the write (R36, R369). False: the capture failed and
nothing was written. -/
def Dev.storeLine (d : Dev) (c : Cx) (line mask : Nat) (data : Bytes) : Dev × Bool :=
  let (d, ok) := d.capture c (line / 64) (d.rd F.EPC_EPOCH_EPOCH)
  if ok then (((d.watchLine line).touch c.variant (line / 64) true).putLine line mask data, true) else (d, false)

/-- Write the poison marker at the home; it is a write for undo capture (R115). -/
def Dev.poisonLine (d : Dev) (c : Cx) (line : Nat) : Dev :=
  let (d, ok) := d.capture c (line / 64) (d.rd F.EPC_EPOCH_EPOCH)
  if ok then (d.touch c.variant (line / 64) true).mark line else d

end Sys2Proof.Machine
end

