-- ==== Sys2Proof/Machine/Leash.lean ====
section
/-! DEFINITION. Leashes (spec/12, R408 to R416). -/
namespace Sys2Proof.Machine

/-! ### Leashes -/

/-- The registers of one level of leash. -/
structure LshRegs where
  rate : Fld
  burst : Fld
  unlim : Fld
  weight : Fld
  bal : Fld
  frac : Fld
  bytes : Fld
  grants : Fld
  held : Fld
  deriving DecidableEq, Repr

def lshFn : LshRegs := ⟨F.LSHF_RATE_RATE, F.LSHF_RATE_BURST, F.LSHF_RATE_UNLIM, F.LSHF_WGT_WEIGHT, F.LSHF_TOK_BAL,
  F.LSHF_TOK_FRAC, F.LSHF_BYTES_BYTES, F.LSHF_OPS_GRANTS, F.LSHF_OPS_HELD⟩
def lshService : LshRegs := ⟨F.LSHS_RATE_RATE, F.LSHS_RATE_BURST, F.LSHS_RATE_UNLIM, F.LSHS_WGT_WEIGHT, F.LSHS_TOK_BAL,
  F.LSHS_TOK_FRAC, F.LSHS_BYTES_BYTES, F.LSHS_OPS_GRANTS, F.LSHS_OPS_HELD⟩
def lshPort : LshRegs := ⟨F.LSHP_RATE_RATE, F.LSHP_RATE_BURST, F.LSHP_RATE_UNLIM, F.LSHP_WGT_WEIGHT, F.LSHP_TOK_BAL,
  F.LSHP_TOK_FRAC, F.LSHP_BYTES_BYTES, F.LSHP_OPS_GRANTS, F.LSHP_OPS_HELD⟩

/-- A leash's signed balance. -/
def Dev.balance (d : Dev) (l : LshRegs) (i : Nat) : Int := toSigned 48 (d.rd l.bal i)

/-- Does the leash hold tokens (R409)? -/
def Dev.holds (d : Dev) (l : LshRegs) (i : Nat) : Bool := d.rd l.unlim i = 1 || decide (0 < d.balance l i)

/-- Charge n tokens and count b bytes and one grant (R409, R410, R416); the balance saturates at −2⁴⁷. -/
def Dev.charge (d : Dev) (l : LshRegs) (i n b : Nat) : Dev :=
  let d := (d.bump l.bytes i b).inc l.grants i
  if d.rd l.unlim i = 1 then d
  else d.wr l.bal i (ofSigned 48 (max (-(2 ^ 47) : Int) (d.balance l i - n)))

/-- Charge a port's grant of b bytes for collar and class: the port leash, and the subscriber and service leashes of
the collar (R410). Traffic of the MODULE collar is charged to no leash (R411). DEDUCED (log 53). -/
def Dev.chargePort (d : Dev) (port collar cls b : Nat) : Dev :=
  if collar > 512 then d
  else
    let n := ceilDiv b 64
    ((d.charge lshPort (8 * port + cls) n b).charge lshFn collar n b).charge lshService (8 * collar + cls) n b

/-- Do the three leashes of a port grant hold tokens (R413)? -/
def Dev.portReady (d : Dev) (port collar cls : Nat) : Bool :=
  collar > 512 || (d.holds lshPort (8 * port + cls) && d.holds lshFn collar && d.holds lshService (8 * collar + cls))

/-- Tokens of one leash at one microsecond (R409): RATE / 256, the fraction kept, never above BURST. -/
def Dev.accrue (d : Dev) (l : LshRegs) (i : Nat) : Dev :=
  let x : Int := d.balance l i * 256 + d.rd l.frac i + d.rd l.rate i
  let top : Int := d.rd l.burst i * 256
  let x := if top < x then top else x
  (d.wr l.bal i (ofSigned 48 (x / 256))).wr l.frac i (x % 256).toNat

/-- Every leash with a rate accrues. -/
def Dev.accrueAll (d : Dev) (l : LshRegs) : Dev := (d.instances l.rate).foldl (fun d i => d.accrue l i) d

/-- The key of a contender's deficit: level (0 subscriber, 1 service, 2 port, 3 subscriber at a port) and number. -/
def deficitKey (level i : Nat) : Nat := i * 4 + level

/-- Set balance, fraction and deficits of a leash to 0 (R415). -/
def Dev.zeroLeash (d : Dev) (l : LshRegs) (level i : Nat) : Dev :=
  let d := (d.wr l.bal i 0).wr l.frac i 0
  { d with deficit := d.deficit.filter fun (k, _) =>
      k ≠ deficitKey level i && !(level = 0 && k % 4 = 3 && k / 4 % 1024 = i) }

/-- One visit of R412 to contender i with work, `dk` its deficit's key: without tokens it is counted as held; otherwise its
deficit gains its weight. -/
def Dev.visit (d : Dev) (l : LshRegs) (dk : Nat → Nat) (i : Nat) : Dev :=
  let df := (tget d.deficit (dk i)).getD 0
  if d.holds l i then { d with deficit := tset d.deficit (dk i) (df + max 1 (d.rd l.weight i)) }
  else d.inc l.held i

/-- The contenders of a list after the one last visited, in ascending number and round to the start (R412). -/
def nextAfter (cs : List Nat) (last : Option Nat) : List Nat :=
  match last with
  | none => cs
  | some x => cs.filter (fun c => decide (x < c)) ++ cs.filter (fun c => decide (c ≤ x))

/-- May contender i be granted a unit of work of this cost? -/
def Dev.affords (d : Dev) (l : LshRegs) (dk cost : Nat → Nat) (i : Nat) : Bool :=
  d.holds l i && cost i ≤ (tget d.deficit (dk i)).getD 0

/-- Grant contender i at the point `point`: its deficit is charged and it is the one last visited. -/
def Dev.grant (d : Dev) (dk : Nat → Nat) (point cost i : Nat) : Dev :=
  let df := (tget d.deficit (dk i)).getD 0
  { d with deficit := tset d.deficit (dk i) (df - cost), visited := tset d.visited point i }

/-- The visits of R412 in order until one contender can be granted; one without tokens is visited once. -/
def Dev.drr (d : Dev) (l : LshRegs) (dk : Nat → Nat) (point : Nat) (cost : Nat → Nat) : Nat → List Nat → Dev × Option Nat
  | 0, _ => (d, none)
  | _, [] => (d, none)
  | k + 1, i :: r =>
    let d := d.visit l dk i
    if d.affords l dk cost i then (d.grant dk point (cost i) i, some i)
    else Dev.drr d l dk point cost k (if d.holds l i then r ++ [i] else r)

/-- One grant of deficit round robin among the contenders that have work, `cs` in ascending number (R412): the one last
visited goes on while its deficit lasts; a contender without work loses its deficit. -/
def Dev.grantNext (d : Dev) (l : LshRegs) (dk : Nat → Nat) (point : Nat) (cost : Nat → Nat) (all cs : List Nat) :
    Dev × Option Nat :=
  let idle := (all.filter fun i => !cs.contains i).map dk
  let d := { d with deficit := d.deficit.filter fun (k, _) => !idle.contains k }
  let last := tget d.visited point
  match last with
  | some i =>
    if cs.contains i && d.affords l dk cost i then (d.grant dk point (cost i) i, some i)
    else d.drr l dk point cost (65536 * cs.length) (nextAfter cs last)
  | none => d.drr l dk point cost (65536 * cs.length) cs

end Sys2Proof.Machine
end

