-- ==== Sys2Proof/Machine/Pack.lean ====
section
/-! DEFINITION. Packs (spec/11, R374 to R378, R383 to R386): the code over GF(2⁸), where a stripe's parity lies, how a lost
position's page is recovered, and the order in which a replacement rebuilds its ranges. -/
namespace Sys2Proof.Machine

/-! ### The field of R375 -/

/-- The product with g = 2. -/
def gfDouble (a : Nat) : Nat := if a < 128 then 2 * a else (2 * a) ^^^ 0x11D

/-- The product with the low bits of b. -/
def gfMulLow : Nat → Nat → Nat → Nat
  | 0, _, _ => 0
  | k + 1, a, b => (if b % 2 = 1 then a else 0) ^^^ gfMulLow k (gfDouble a) (b / 2)

/-- The product of two bytes. -/
def gfMul (a b : Nat) : Nat := gfMulLow 8 a b

/-- The powers of g. -/
def gfPow : Nat → Nat
  | 0 => 1
  | i + 1 => gfDouble (gfPow i)

/-- The inverse of a non-zero byte, its 254th power. -/
def gfInv (a : Nat) : Nat := (List.range 254).foldl (fun x _ => gfMul x a) 1

/-- A block multiplied by a byte. -/
def gfScale (c : Nat) (b : Bytes) : Bytes := b.map fun x => BitVec.ofNat 8 (gfMul c x.toNat)

/-- The sum of two blocks. -/
def xorBytes (a b : Bytes) : Bytes := List.zipWith (fun x y => x ^^^ y) a b

/-! ### Positions -/

/-- The position holding P of GiB g, the one holding Q, and the data index of a position (R374): k at the P holder and
k + 1 at the Q holder. -/
def holderP (n g : Nat) : Nat := g % n
def holderQ (n g : Nat) : Nat := (g + 1) % n
def dataIdx (n g p : Nat) : Nat := (p + n - (g + 2) % n) % n

/-- The position of data index i. -/
def dataPos (n g i : Nat) : Nat := (g + 2 + i) % n

/-- Positions of the pack. -/
def Dev.packN (d : Dev) : Nat := d.rd F.PAK_CFG_K + 2

/-- Is GiB g of this module a parity range (R374)? -/
def Dev.parityGiB (d : Dev) (g : Nat) : Bool :=
  d.rd F.PAK_CFG_VALID = 1 && decide (d.rd F.PAK_CFG_K ≤ dataIdx d.packN g (d.rd F.PAK_CFG_POS))

/-- Is a position lost, or filled by a replacement that is not rebuilt? -/
def Dev.posLost (d : Dev) (p : Nat) : Bool := d.rd F.PAK_MEMB_LOST p = 1

/-- The positions from which the page of position x in GiB g is recovered (R384); none when three are lost. -/
def Dev.sources (d : Dev) (g x : Nat) : Option (List Nat) :=
  let n := d.packN
  let k := d.rd F.PAK_CFG_K
  let lost := (List.range n).filter fun p => d.posLost p || p = x
  let lostData := (lost.filter fun p => dataIdx n g p < k).length
  let parity := [holderP n g, holderQ n g].filter fun p => !lost.contains p
  if d.rd F.PAK_CFG_VALID = 0 || 2 < lost.length then none
  else some (((List.range k).map (dataPos n g)).filter (fun p => !lost.contains p) ++ parity.take lostData)

/-- The sum of blocks. -/
def sumBlocks (len : Nat) (bs : List Bytes) : Bytes := bs.foldl xorBytes (List.replicate len 0)

/-- The block of position x in GiB g from the blocks of its sources (R384). -/
def recoverBlock (n g x len : Nat) (got : List (Nat × Bytes)) : Bytes :=
  let k := n - 2
  let blk (p : Nat) : Option Bytes := (got.find? fun (q, _) => q = p).map fun (_, b) => b
  let known := (List.range k).filterMap fun i => (blk (dataPos n g i)).map fun b => (i, b)
  let lost := (List.range k).filter fun i => (blk (dataPos n g i)).isNone
  let a := sumBlocks len (known.map fun (_, b) => b)
  let q := sumBlocks len (known.map fun (i, b) => gfScale (gfPow i) b)
  let found : List (Nat × Bytes) := match lost, blk (holderP n g), blk (holderQ n g) with
    | [i], some p, _ => [(i, xorBytes p a)]
    | [i], none, some r => [(i, gfScale (gfInv (gfPow i)) (xorBytes r q))]
    | [i, j], some p, some r =>
      let a := xorBytes p a
      let b := xorBytes r q
      let y := gfScale (gfInv (gfPow i ^^^ gfPow j)) (xorBytes b (gfScale (gfPow i) a))
      [(i, xorBytes a y), (j, y)]
    | _, _, _ => []
  let all := known ++ found
  let i := dataIdx n g x
  if i = k then sumBlocks len (all.map fun (_, b) => b)
  else if i = k + 1 then sumBlocks len (all.map fun (j, b) => gfScale (gfPow j) b)
  else match all.find? fun (j, _) => j = i with
    | some (_, b) => b
    | none => List.replicate len 0

/-! ### The order of a rebuild (R386) -/

/-- The residues of data GiBs and of parity GiBs of a position, modulo n. -/
def dataRes (n pos : Nat) : List Nat := (List.range n).filter fun r => dataIdx n r pos < n - 2
def parityRes (n pos : Nat) : List Nat := (List.range n).filter fun r => n - 2 ≤ dataIdx n r pos

/-- GiBs below `cap` with one of the residues. -/
def countRes (res : List Nat) (n cap : Nat) : Nat := cap / n * res.length + (res.filter fun r => r < cap % n).length

/-- The i-th GiB with one of the residues. -/
def nthRes (res : List Nat) (n i : Nat) : Nat := i / res.length * n + res.getD (i % res.length) 0

/-- The i-th range a position rebuilds: data ranges ascending, then parity ranges. -/
def planGiB (n pos cap i : Nat) : Nat :=
  let nd := countRes (dataRes n pos) n cap
  if i < nd then nthRes (dataRes n pos) n i else nthRes (parityRes n pos) n (i - nd)

/-- Where a GiB stands in that order. -/
def planIndex (n pos cap g : Nat) : Nat :=
  if dataIdx n g pos < n - 2 then countRes (dataRes n pos) n g
  else countRes (dataRes n pos) n cap + countRes (parityRes n pos) n g

/-- Has a page of this replacement not been rebuilt, while the pack can supply it (R385)? DEDUCED (log 56). -/
def Dev.needsRebuild (d : Dev) (v : Variant) (page : Nat) : Bool :=
  let g := page / 262144
  let pos := d.rd F.PAK_CFG_POS
  d.rd F.PAK_RBLD_ACTIVE = 1 && decide (d.rd F.PAK_RBLD_DONE ≤ planIndex d.packN pos v.storeGiB g) &&
    !d.rebPages.contains page && (d.sources g pos).isSome

/-! ### Requests of the repair channel -/

/-- The lowest tag that is neither outstanding nor resting (R458, R485). -/
def Dev.newTag (d : Dev) : Nat :=
  let used := d.reqs.map (·.tag) ++ d.deadTags.map (·.1)
  ((List.range (used.length + 1)).find? fun t => !used.contains t).getD 0

/-- Send a request to a node about an offset, and note that it is outstanding. DEDUCED (log 36). -/
def Dev.request (d : Dev) (tmr mtype dst off param : Nat) (payload : Bytes) (p : Purpose) : Dev :=
  let me := d.rd F.MAP_NODE_NODE
  let tag := d.newTag
  let r : Req := { tag := tag, dst := dst, mtype := mtype, addr := dst * 2 ^ 50 + off,
                   link := chooseLink (d.eligible dst) off dst me, since := tmr, purpose := p }
  { d with reqs := d.reqs ++ [r] }.emit (.msg
    { mtype := mtype, dst := dst, src := me, tag := tag, off := off, param := param, payload := payload })

/-- Ask the sources of a page for its sixteen blocks at the last committed heel (R384, R385). -/
def Dev.askPage (d : Dev) (tmr page : Nat) : Dev :=
  let ps := (d.sources (page / 262144) (d.rd F.PAK_CFG_POS)).getD []
  (List.range 16).foldl (fun d b => ps.foldl (fun d p =>
    d.request tmr 0x41 (d.rd F.PAK_MEMB_NODE p) (page * 4096 + 256 * b) (d.rd F.EPC_LAST_LAST) [] .rebuild) d) d

/-- A rebuilt page takes its contents at R: no write of the epoch, so nothing is captured. A block whose source was poisoned
is poisoned. -/
def Dev.putRebuilt (d : Dev) (v : Variant) (page : Nat) (blocks : List (Nat × List (Nat × Bytes))) : Dev :=
  let g := page / 262144
  let pos := d.rd F.PAK_CFG_POS
  let d := { d with mem := memClear d.mem (page * 4096) 4096, poison := d.poison.filter (fun l => l / 64 ≠ page),
                    rebPages := sadd d.rebPages page }
  let d := blocks.foldl (fun d (b, got) =>
    if got.any fun (_, x) => x.isEmpty then
      (List.range 4).foldl (fun d i => d.mark (page * 64 + 4 * b + i)) d
    else { d with mem := memPut d.mem (page * 4096 + 256 * b) (recoverBlock d.packN g pos 256 got) }) d
  d.touch v page true

end Sys2Proof.Machine
end

