-- ==== Sys2Proof/Machine/Dir.lean ====
section
/-! DEFINITION. The directory: transactions on lines, the snoops they send, how answers change an entry, and what the
home does when a transaction completes (spec/03). -/
namespace Sys2Proof.Machine

/-! ### Entries -/

/-- The copy holder a requester would be (R72). -/
def Src.agent : Src → Option Agent
  | .fabric n _ _ _ => some (.node n)
  | .host s _ => some (.spid s)
  | _ => none

/-- The valid pointers of an entry. -/
def DirEnt.ptrs (e : DirEnt) : List Agent := [e.p0, e.p1, e.p2, e.p3].filterMap id

/-- Clear the pointer that names an agent (R84, R114, R119). -/
def DirEnt.drop (e : DirEnt) (a : Agent) : DirEnt :=
  { e with p0 := if e.p0 = some a then none else e.p0, p1 := if e.p1 = some a then none else e.p1,
           p2 := if e.p2 = some a then none else e.p2, p3 := if e.p3 = some a then none else e.p3 }

/-- Record a sharer: unchanged if it is named, else the first free pointer, else OVERFLOW (R79, R92). -/
def DirEnt.add (e : DirEnt) (a : Agent) : DirEnt :=
  if e.ovf || e.ptrs.contains a then e
  else if e.p0 = none then { e with p0 := some a }
  else if e.p1 = none then { e with p1 := some a }
  else if e.p2 = none then { e with p2 := some a }
  else if e.p3 = none then { e with p3 := some a }
  else { e with ovf := true }

/-- The entry of a line and its key. -/
def Dev.ent (d : Dev) (line : Nat) : Option (Nat × DirEnt) := d.dir.find? fun (_, e) => e.line = line

/-- Put an entry back, or free it when it names nobody. -/
def Dev.putEnt (d : Dev) (key : Nat) (e : DirEnt) : Dev :=
  if e.ptrs.isEmpty && !e.ovf then { d with dir := tdel d.dir key } else { d with dir := tset d.dir key e }

/-- Free the entry of a line. -/
def Dev.freeEnt (d : Dev) (line : Nat) : Dev :=
  match d.ent line with
  | some (k, _) => { d with dir := tdel d.dir k }
  | none => d

/-- Do two runs of lines meet? -/
def Txn.covers (t : Txn) (line : Nat) : Bool := t.line ≤ line && line < t.line + t.n

/-- A line with a tracker in use, in the victim buffer, or waiting for a fill, is busy (R78, R113). -/
def Dev.busy (d : Dev) (line : Nat) : Bool :=
  d.trackers.any (·.covers line) || d.victims.any (·.covers line) || d.fills.any (fun f => f.waiting.any (·.covers line))

/-- Does any line of the transaction meet a busy one? -/
def Dev.busyTxn (d : Dev) (t : Txn) : Bool := (List.range t.n).any fun i => d.busy (t.line + i)

/-- Does a line's unit live on a fenced flash channel, so that accesses to it wait (R497)? DESIGN CHOICE (log 37). -/
def Dev.chFenced (d : Dev) (v : Variant) (line : Nat) : Bool :=
  d.rd F.RAS_FLMASK_FLASH ≠ 0 && d.bitAt F.RAS_FLMASK_FLASH 0 (d.channelOf v (line * 64))

/-- The slice that serves a line: its home, or the partner of a fenced home (R498). -/
def Dev.sliceFenced (d : Dev) (v : Variant) (line : Nat) : Bool := d.bitAt F.RAS_FMASK_SLICES 0 (d.sliceOf v (line * 64))

/-! ### Sharing groups (R89 to R91) -/

/-- The fabric nodes of a collar's sharing group. -/
def Dev.groupNodes (d : Dev) (collar : Nat) : List Nat :=
  match d.map.fns.find? (·.fn = collar) with
  | some r => if r.mcGroup.isSome then r.nodes else []
  | none => []

/-- The SPIDs bound to a collar's function. -/
def Dev.groupSpids (d : Dev) (collar : Nat) : List Nat :=
  (d.instances F.CXP_SPID_VALID).filter fun i => d.rd F.CXP_SPID_COLLAR i = collar

/-- Is an agent in the sharing group of a collar? -/
def Dev.inSharing (d : Dev) (collar : Nat) : Agent → Bool
  | .node n => (d.groupNodes collar).contains n
  | .spid i => (d.groupSpids collar).contains i

/-! ### Snoops -/

/-- The fabric address of a line in a snoop: the direct form of its store offset. -/
def lineAddr (line : Nat) : Nat := 2 ^ 49 + line * 64

/-- The message or back-invalidation of one snoop (R80 to R87, R460). DEDUCED (log 30). -/
def Dev.snoopOut (d : Dev) (t : Txn) (s : Snoop) : Out :=
  match s.agent with
  | .spid i => .biSnp (d.rd F.CXP_SPID_PBRID i) s.line (s.kind = 0 || s.kind = 2)
  | .node n =>
    let (rn, rt) := match t.src with
      | .fabric a b _ _ => (a, b)
      | _ => (0, 0)
    let ty := match s.kind with
      | 0 => 0x20
      | 1 => 0x21
      | 2 => 0x22
      | 3 => 0x28
      | _ => 0x29
    let par := if 3 ≤ s.kind then rn + 2 ^ 14 * rt else 0
    .msg { mtype := ty, dst := n, src := d.rd F.MAP_NODE_NODE, tag := s.line % 65536, off := lineAddr s.line, param := par }

/-- Does a request ask for the only copy? -/
def Want.owning : Want → Bool
  | .own | .upgrade | .inv => true
  | _ => false

/-- Does a request write at home? -/
def Want.writes : Want → Bool
  | .write _ _ | .atomic _ | .poison => true
  | _ => false

/-- Does a transaction only move or remove copies, touching no data of the home? -/
def Want.internal : Want → Bool
  | .evict | .recall => true
  | _ => false

/-- The snoop kind toward the owner of a MODIFIED line (R79, R85, R87). -/
def ownerSnoop (t : Txn) (o : Agent) : Nat :=
  match t.want, t.src, o with
  | .shared, .fabric _ _ _ _, .node _ => 3
  | .own, .fabric _ _ _ _, .node _ => 4
  | .upgrade, .fabric _ _ _ _, .node _ => 4
  | .shared, _, _ => 1
  | .once, _, _ => 1
  | .engRead, _, _ => 1
  | .recall, _, _ => 1
  | _, _, _ => 2

/-- The snoops R79 asks for on one line: those sent, and whether the sharing group's multicast is one of them. -/
def Dev.snoopsFor (d : Dev) (t : Txn) (line : Nat) (e : DirEnt) : List Snoop × Bool :=
  if e.owned then
    match e.p0 with
    | some o => ([⟨o, line, ownerSnoop t o⟩], false)
    | none => ([], false)
  else
    let spare := if t.want.owning then t.src.agent else none
    if t.want.owning || t.want.writes || t.want = .evict then
      if e.ovf then
        let hosts := (d.groupSpids e.collar).filter fun i => some (Agent.spid i) ≠ spare
        (hosts.map fun i => (⟨.spid i, line, 0⟩ : Snoop), d.rd F.PTR_SGRP_MCVALID e.collar = 1)
      else ((e.ptrs.filter fun a => some a ≠ spare).map fun a => (⟨a, line, 0⟩ : Snoop), false)
    else ([], false)

/-- Send the snoops of a transaction's lines and note what must answer; a group invalidation goes once to the multicast
group and is counted (R90). -/
def Dev.snoopLines (d : Dev) (c : Cx) (t : Txn) : Nat → Dev × Txn
  | 0 => (d, t)
  | k + 1 =>
    let (d, t) := Dev.snoopLines d c t k
    match d.ent (t.line + k) with
    | none => (d, t)
    | some (_, e) =>
      let (ss, g) := d.snoopsFor t (t.line + k) e
      let d := d.emits (ss.map (d.snoopOut t))
      if g then
        let slice := d.sliceOf c.variant ((t.line + k) * 64)
        let m := d.rd F.PTR_SGRP_MEMBERS e.collar
        let msg : Msg :=
          { mtype := 0x20, grp := true, dst := d.rd F.PTR_SGRP_MCGROUP e.collar, src := d.rd F.MAP_NODE_NODE,
            tag := (t.line + k) % 65536, off := lineAddr (t.line + k) }
        ((d.emit (.msg msg)).inc F.PTR_MCAST_COUNT slice, { t with snoops := t.snoops ++ ss, group := t.group + m })
      else (d, { t with snoops := t.snoops ++ ss })

/-! ### Answers to requesters -/

/-- One of a kennel's and a window's requests has been answered (R56, R138). -/
def Dev.release (d : Dev) (t : Txn) : Dev :=
  let d := match t.knl with
    | some k => d.dec F.KNL_INFLT_COUNT k
    | none => d
  match t.win with
  | some w => d.dec F.XLT_WINFLT_COUNT w
  | none => d

/-- CXL.mem requests in execution (R424). -/
def Dev.hostLoad (d : Dev) : Nat :=
  ((d.trackers ++ d.conflict ++ d.held ++ d.portHeld.map (fun w => w.txn) ++ d.fills.flatMap fun f => f.waiting).filter fun t =>
    match t.src with
    | .host _ _ => true
    | _ => false).length

/-- DevLoad (R424). -/
def Dev.devLoad (d : Dev) : Nat :=
  let n := d.hostLoad
  if n < 256 then 0 else if n < 512 then 1 else if n < 768 then 2 else 3

/-- Answer a transaction: status (R458), grant (R459: 0 none, 1 shared, 2 owned), data (empty: a completion). -/
def Dev.answer (d : Dev) (t : Txn) (status grant : Nat) (data : Bytes) : Dev :=
  let me := d.rd F.MAP_NODE_NODE
  let d := match t.src with
    | .fabric n tag off _ =>
      if data.isEmpty then d.emit (.msg { mtype := 0x30, dst := n, src := me, tag := tag, status := status, off := off })
      else d.emit (.msg { mtype := 0x31, dst := n, src := me, tag := tag, status := status, off := off,
                          attr := grant + 4 * (t.n - 1), payload := data })
    | .host s tag =>
      let host := d.rd F.CXP_SPID_PBRID s
      if data.isEmpty then d.emit (.cxlCmp host tag grant d.devLoad)
      else (if status = 3 then (d.emit (.cxlData host tag 0 d.devLoad true data)).inc F.CXP_MEMCNT_POISON_TX 0
            else d.emit (.cxlData host tag grant d.devLoad false data))
    | .thread b th a => { d with answers := d.answers ++ [(⟨b, th, a, status, data⟩ : EngAns)] }
    | .home => d
  d.release t

/-! ### Completion at home -/

/-- The way a new entry of a set takes: the first free one, else a victim by R112, which moves to the victim buffer with
the snoops that remove its copies (R113). None: the buffer is full or every way is busy. -/
def Dev.takeWay (d : Dev) (c : Cx) (line : Nat) : Option (Dev × Nat) :=
  let slice := d.sliceOf c.variant (line * 64)
  let base := (slice * 8192 + d.setOf (line * 64)) * 16
  match (List.range 16).find? fun w => (tget d.dir (base + w)).isNone with
  | some w => some (d, base + w)
  | none =>
    let ways := (List.range 16).filterMap fun w =>
      match tget d.dir (base + w) with
      | some e => if d.busy e.line then none else some (base + w, e)
      | none => none
    let older (l : List (Nat × DirEnt)) : Option (Nat × DirEnt) :=
      l.foldl (fun b x => match b with
        | none => some x
        | some y => if x.2.born < y.2.born then some x else some y) none
    let pick := (older (ways.filter fun x => !x.2.owned)).orElse fun _ => older ways
    if 64 ≤ (d.victims.filter fun t => d.sliceOf c.variant (t.line * 64) = slice).length then none
    else match pick with
      | none => none
      | some (k, e) =>
        let t : Txn := { line := e.line, collar := e.collar, want := .evict, src := .home, since := c.tmr }
        let (d, t) := d.snoopLines c t 1
        let d := ({ d with dir := tdel d.dir k }).inc F.PTR_EVICT_COUNT slice
        some (if t.snoops.isEmpty && t.group = 0 then d else { d with victims := d.victims ++ [t] }, k)

/-- Make a line's entry: SHARED with one sharer, or MODIFIED with its owner (R79). A non-atomic change of a line's state
takes the line out of the atomic line buffer (R98). -/
def Dev.newEnt (d : Dev) (c : Cx) (line collar : Nat) (a : Agent) (owned : Bool) : Option Dev :=
  match d.takeWay c line with
  | none => none
  | some (d, k) =>
    some { d with dir := tset d.dir k { line := line, owned := owned, collar := collar, p0 := some a, born := d.born },
                  born := d.born + 1, abuf := d.abuf.filter (· ≠ line) }

/-- Grant a shared copy. None: no way can be had now. -/
def Dev.grantShared (d : Dev) (c : Cx) (t : Txn) (a : Agent) : Option Dev :=
  match d.ent t.line with
  | none => d.newEnt c t.line t.collar a false
  | some (k, e) => some (d.putEnt k ({ e with owned := false }.add a))

/-- Grant the only copy; the write watch sees the grant (R287). -/
def Dev.grantOwned (d : Dev) (c : Cx) (t : Txn) (a : Agent) : Option Dev :=
  match d.ent t.line with
  | none => (d.newEnt c t.line t.collar a true).map (·.watchLine t.line)
  | some (k, e) =>
    some (({ d with dir := tset d.dir k { e with owned := true, ovf := false, p0 := some a, p1 := none, p2 := none,
                                                 p3 := none },
                    abuf := d.abuf.filter (· ≠ t.line) }).watchLine t.line)

/-- A line changed by an atomic enters its slice's atomic line buffer, the least recently changed line leaving when 64
are held (R98). -/
def Dev.enterAbuf (d : Dev) (c : Cx) (line : Nat) : Dev :=
  let slice := d.sliceOf c.variant (line * 64)
  let l := d.abuf.filter (· ≠ line)
  let mine := l.filter fun x => d.sliceOf c.variant (x * 64) = slice
  { d with abuf := (if 64 ≤ mine.length then l.filter (some · ≠ mine.head?) else l) ++ [line] }

/-- Execute a write of the lines of a transaction, line by line; false when a capture failed. -/
def Dev.writeLines (d : Dev) (c : Cx) (line mask : Nat) (data : Bytes) : Nat → Dev × Bool × Bool
  | 0 => (d, true, false)
  | k + 1 =>
    let (d, ok, poi) := Dev.writeLines d c line mask data k
    if !ok then (d, false, poi)
    else
      let m := bits mask (64 * k) 64
      let l := line + k
      if m = 0 then (d, true, poi)
      else if m ≠ 2 ^ 64 - 1 && d.poisoned l then
        (d.inc F.PTR_POISON_DROPPED (d.sliceOf c.variant (l * 64)), true, true)
      else
        let (d, ok) := d.storeLine c l m ((data.drop (64 * k)).take 64)
        (({ d with abuf := d.abuf.filter (· ≠ l) }).freeEnt l, ok, poi)

/-- Execute one atomic at the home atomic unit (R93 to R98): not on a poisoned line. -/
def Dev.doAtomic (d : Dev) (c : Cx) (t : Txn) (a : AtomOp) : Dev :=
  let slice := d.sliceOf c.variant (t.line * 64)
  let d := d.bump F.PTR_ASEQ_COUNT slice
  let d := d.freeEnt t.line
  if d.poisoned t.line then d.answer t 3 0 []
  else
    let n := if a.whole then 64 else (etyBytes a.ety).getD 4
    let at_ := if a.whole then 0 else a.at_
    let old := d.bytes (t.line * 64 + at_) n
    let new := aopBytes a.aop a.ety old (takeBytes n a.operand) (takeBytes n a.cmp)
    let (d, ok) := d.storeLine c t.line ((2 ^ n - 1) * 2 ^ at_) (List.replicate at_ 0 ++ new)
    if ok then ((d.enterAbuf c t.line).chargePort 37 t.collar 0 64).answer t 0 0 (if a.fetch then old else [])
    else d.release t

/-- The home executes a transaction whose snoops have been answered and whose page is in DRAM (R79, R101, R115). A
grant that finds no way waits in the conflict queue. DEDUCED (log 32). -/
def Dev.complete (d : Dev) (c : Cx) (t : Txn) : Dev :=
  let page := t.line / 64
  let fenced := d.sliceFenced c.variant t.line
  let zero : Bytes := List.replicate (64 * t.n) 0
  let bad := (List.range t.n).any fun i => d.poisoned (t.line + i)
  let retry (d : Dev) : Dev := { d with conflict := t :: d.conflict }
  let a? := t.src.agent
  match t.want with
  | .evict | .recall => d
  | .write mask data =>
    let (d, ok, poi) := d.writeLines c t.line mask data t.n
    if ok then d.answer t (if poi then 3 else 0) 0 [] else d.release t
  | .poison =>
    ((List.range t.n).foldl (fun d i => ((d.poisonLine c (t.line + i)).freeEnt (t.line + i))) d).answer t 3 0 []
  | .atomic a => d.doAtomic c t a
  | .once | .engRead =>
    if bad then d.answer t 3 0 zero
    else (d.touch c.variant page false).answer t 0 0 (d.bytes (t.line * 64) (64 * t.n))
  | .shared =>
    if bad then d.answer t 3 0 zero
    else
      let data := d.bytes (t.line * 64) 64
      let d := d.touch c.variant page false
      match a?, fenced with
      | some a, false =>
        match d.grantShared c t a with
        | some d => d.answer t 0 1 data
        | none => retry d
      | _, _ => d.answer t 0 0 data
  | .own =>
    if bad then d.answer t 3 0 zero
    else
      let data := d.bytes (t.line * 64) 64
      let d := d.touch c.variant page false
      match a?, fenced with
      | some a, false =>
        match d.grantOwned c t a with
        | some d => d.answer t 0 2 data
        | none => retry d
      | _, _ => d.answer t 0 0 data
  | .inv =>
    if bad then d.answer t 3 0 []
    else match a?, fenced with
      | some a, false =>
        match d.grantOwned c t a with
        | some d => d.answer t 0 2 []
        | none => retry d
      | _, _ => d.answer t 0 0 []
  | .upgrade =>
    if bad then d.answer t 3 0 zero
    else
      let data := d.bytes (t.line * 64) 64
      match a?, fenced with
      | some a, false =>
        let kept := !t.lost && (match d.ent t.line with
          | some (_, e) => e.ovf || e.ptrs.contains a
          | none => false)
        match d.grantOwned c t a with
        | some d => if kept then d.answer t 0 2 [] else (d.touch c.variant page false).answer t 0 2 data
        | none => retry d
      | _, _ => d.answer t 0 0 data

/-- A transaction whose snoops are all answered: rebuild its page first on a replacement (R385), fill it first if it lies in
flash (R337), else complete it. -/
def Dev.settle (d : Dev) (c : Cx) (t : Txn) : Dev :=
  let page := t.line / 64
  let full := match t.want with
    | .evict | .recall | .inv | .poison => true
    | _ => false
  if !t.want.internal && d.needsRebuild c.variant page then
    if d.fills.any (·.page = page) then
      { d with fills := mapIf (fun f => f.page = page) (fun f => { f with waiting := f.waiting ++ [t] }) d.fills }
    else { d with fills := d.fills ++ [({ page := page, since := c.tmr, cws := 0, reb := true, waiting := [t] } : Fill)] }.askPage
      c.tmr page
  else if !full && d.misses page then
    if d.fills.any (·.page = page) then
      { d with fills := mapIf (fun f => f.page = page) (fun f => { f with waiting := f.waiting ++ [t] }) d.fills }
    else
      let (d, n) := d.fillWords c.variant page
      ({ d with fills := d.fills ++ [({ page := page, since := c.tmr, cws := n, waiting := [t] } : Fill)] }).bump
        F.FLS_QUEUE_QUEUED (d.channelOf c.variant (page * 4096)) n
  else d.complete c t

/-- Start a transaction on lines that are not busy: snoop, and settle at once when nothing must answer. DEDUCED (log 32). -/
def Dev.start (d : Dev) (c : Cx) (t : Txn) : Dev :=
  let (d, t) := d.snoopLines c t t.n
  if t.snoops.isEmpty && t.group = 0 then d.settle c t else { d with trackers := d.trackers ++ [t] }

/-- A transaction needs an ordering point: is an earlier one for its line waiting? -/
def Dev.queuedLine (d : Dev) (t : Txn) : Bool :=
  d.conflict.any fun q => (List.range t.n).any fun i => q.covers (t.line + i)

/-- Trackers of a slice in use. -/
def Dev.trackersOf (d : Dev) (v : Variant) (slice : Nat) : Nat :=
  (d.trackers.filter fun t => d.sliceOf v (t.line * 64) = slice).length

/-- Does the home hold a request back: a heel holds writes, atomics and grants of ownership, a rollback everything (R364,
R380)? Requests of the collar MODULE pass. DEDUCED (log 31). -/
def Dev.holdsBack (d : Dev) (t : Txn) : Bool :=
  t.collar ≠ 1023 && (2 ≤ d.hold || (d.hold = 1 && (t.want.writes || t.want.owning)))

/-- A request reaches its home slice: it waits in the conflict queue while its line is busy or an earlier request for
it waits, while its flash channel is fenced (R497), or while all 1,024 trackers are in use (R78). DEDUCED (log 31, 56). -/
def Dev.takeIn (d : Dev) (c : Cx) (t : Txn) : Dev :=
  if d.holdsBack t then { d with held := d.held ++ [t] }
  else if d.busyTxn t || d.queuedLine t || d.chFenced c.variant t.line ||
      1024 ≤ d.trackersOf c.variant (d.sliceOf c.variant (t.line * 64)) then
    { d with conflict := d.conflict ++ [t] }
  else d.start c t

/-- The earliest request of the conflict queue for a line that is no longer busy is admitted (R78). DESIGN CHOICE (log 37). -/
def Dev.pump (d : Dev) (c : Cx) (line : Nat) : Dev :=
  match d.conflict.find? fun t => t.covers line with
  | none => d
  | some t =>
    let before := d.conflict.takeWhile (· ≠ t)
    let waits := before.any fun q => (List.range t.n).any fun i => q.covers (t.line + i)
    if waits || d.busyTxn t || d.chFenced c.variant t.line || 1024 ≤ d.trackersOf c.variant (d.sliceOf c.variant (t.line * 64)) then d
    else ({ d with conflict := d.conflict.erase t }).start c t

/-! ### Answers to snoops -/

/-- What a snooped agent answers. -/
inductive SnoopAns
  | ack | miss
  /-- A host's BIRspI to BISnpData: it keeps no copy. -/
  | gone
  /-- The dirty data of the line (SNP_DATA, or a host's MemWr before its BIRsp). -/
  | dirty (b : Bytes)
  /-- No answer within the fabric request timeout. -/
  | silent
  deriving DecidableEq, Repr

/-- The entry of a snooped line after an answer: an invalidated copy is no longer named; a recalled owner is a sharer,
or gone; a forwarded line has its new holder (R79, R81). -/
def Dev.afterAnswer (d : Dev) (t : Txn) (s : Snoop) (a : SnoopAns) : Dev :=
  match d.ent s.line with
  | none => d
  | some (k, e) =>
    let gone := d.putEnt k (e.drop s.agent)
    match s.kind, a with
    | 0, _ => gone
    | 1, .miss => gone
    | 1, _ => d.putEnt k { e with owned := false }
    | 3, .miss => gone
    | 3, _ => match t.src.agent with
      | some r => d.putEnt k ({ e with owned := false }.add r)
      | none => d
    | 4, .miss => gone
    | 4, _ => match t.src.agent with
      | some r => (d.putEnt k { e with p0 := some r, p1 := none, p2 := none, p3 := none }).watchLine s.line
      | none => d
    | _, _ => gone

/-- Poison a line whose owner is lost, count it, and free its entry (R84, R114). -/
def Dev.poisonOwned (d : Dev) (c : Cx) (line : Nat) : Dev :=
  ((d.poisonLine c line).freeEnt line).inc F.PTR_POISON_MARKED (d.sliceOf c.variant (line * 64))

/-- Does an offset lie in a kennel that is revoked and drained? -/
def Dev.revokedOff (d : Dev) (off : Nat) : Bool := match d.kennelAt off with
  | some k => d.rd F.KNL_BIND_STATE k = 2 && d.rd F.KNL_INFLT_COUNT k = 0
  | none => false

/-- Apply one answer to the transaction that waits for it: dirty data is written at home, the entry changes, and a
forward that was done answers the requester itself. A silent sharer is dropped; a silent owner's line is poisoned, and a
forward then leaves the requester to be answered POISON (R84). -/
def Dev.applyAnswer (d : Dev) (c : Cx) (t : Txn) (s : Snoop) (a : SnoopAns) : Dev × Txn :=
  let t := { t with snoops := t.snoops.filter (· ≠ s) }
  let slice := d.sliceOf c.variant (s.line * 64)
  let d := if a = .miss then d.inc F.PTR_STALE_COUNT slice else d
  match a with
  | .dirty b =>
    -- a rollback discards modified data (R36), and so does a drained kennel that is revoked (R59, step 5)
    let (d, _) := if d.hold = 2 || d.revokedOff (s.line * 64) then (d, true) else d.storeLine c s.line (2 ^ 64 - 1) b
    (d.afterAnswer t s a, { t with forwarded := t.forwarded || 3 ≤ s.kind })
  | .silent =>
    if s.kind = 0 || d.hold = 2 then (d.afterAnswer t s .ack, t) else (d.poisonOwned c s.line, t)
  | .ack => (d.afterAnswer t s .ack, { t with forwarded := t.forwarded || 3 ≤ s.kind })
  | .miss | .gone => (d.afterAnswer t s .miss, t)

/-- All answers are in: a forwarded transaction only releases its counts; any other settles. -/
def Dev.afterSnoops (d : Dev) (c : Cx) (t : Txn) : Dev :=
  if t.forwarded then d.release t else d.settle c t

/-- Put a transaction back, or finish it when nothing is outstanding. -/
def Dev.putBack (d : Dev) (c : Cx) (t : Txn) : Dev :=
  if t.snoops.isEmpty && t.group = 0 then d.afterSnoops c t else { d with trackers := d.trackers ++ [t] }

/-- An answer to a snoop of a line arrives from an agent: the tracker, or the victim, that waits for it takes it; a
group member's answer counts one down; an answer nothing waits for is discarded. -/
def Dev.snoopAnswer (d : Dev) (c : Cx) (ag : Agent) (line : Nat) (a : SnoopAns) : Dev :=
  let waits (t : Txn) : Bool := t.snoops.any fun s => s.agent = ag && s.line = line
  let groups (t : Txn) : Bool := t.group ≠ 0 && t.covers line
  let rm (l : List Txn) (t : Txn) : List Txn := l.erase t
  match d.trackers.find? waits with
  | some t =>
    match t.snoops.find? fun s => s.agent = ag && s.line = line with
    | some s =>
      let (d, t') := ({ d with trackers := rm d.trackers t }).applyAnswer c t s a
      d.putBack c t'
    | none => d
  | none =>
    match d.victims.find? waits with
    | some t =>
      match t.snoops.find? fun s => s.agent = ag && s.line = line with
      | some s =>
        let (d, t') := ({ d with victims := rm d.victims t }).applyAnswer c t s a
        if t'.snoops.isEmpty && t'.group = 0 then d else { d with victims := d.victims ++ [t'] }
      | none => d
    | none =>
      let d := if a = .miss && (d.trackers.any groups || d.victims.any groups) then
          d.inc F.PTR_STALE_COUNT (d.sliceOf c.variant (line * 64)) else d
      match d.trackers.find? groups with
      | some t =>
        let t' := { t with group := t.group - 1, lost := t.lost || t.src.agent = some ag }
        ({ d with trackers := rm d.trackers t }).putBack c t'
      | none =>
        match d.victims.find? groups with
        | some t =>
          let t' := { t with group := t.group - 1 }
          let d := { d with victims := rm d.victims t }
          if t'.snoops.isEmpty && t'.group = 0 then d else { d with victims := d.victims ++ [t'] }
        | none => d

/-- The owner's write-back (R78, R79): written at once even while the line is busy, the entry freed, and the transaction
that recalls it told at the snoop's own answer. False: the capture found no frame and nothing was written (R373). -/
def Dev.writeBack (d : Dev) (c : Cx) (line : Nat) (data : Bytes) : Dev × Bool :=
  let (d, ok) := d.storeLine c line (2 ^ 64 - 1) data
  if ok then (({ d with abuf := d.abuf.filter (· ≠ line) }).freeEnt line, true) else (d, false)

/-- Is an agent the owner of a line? -/
def Dev.owns (d : Dev) (a : Agent) (line : Nat) : Bool :=
  match d.ent line with
  | some (_, e) => e.owned && e.p0 = some a
  | none => false

end Sys2Proof.Machine
end

