-- ==== Sys2Proof/Machine/Engine.lean ====
section
/-! DEFINITION. Engine accesses: translation caches, walks and their faults (spec/04, R120 to R136), windows (R138), the
kennel check at the bay (R54), and the runner under which a row that holds a whole descriptor reads and writes the store
through the directory. -/
namespace Sys2Proof.Machine

/-- A free value (see Config.freeValue). DESIGN CHOICE (log 9). -/
def Dev.pick (d : Dev) : Nat × Dev := (Config.freeValue d.fresh, { d with fresh := d.fresh + 1 })

/-! ### Fabric addresses (R44, R45) -/

/-- The node of a fabric address. -/
def faNode (a : Nat) : Nat := a / 2 ^ 50

/-- Is a fabric address in the direct form? -/
def faDirect (a : Nat) : Bool := bit a 49

/-- The window number of a window-form address. -/
def faWindow (a : Nat) : Nat := bits a 36 13

/-- The rights an access needs. -/
structure Need where
  r : Bool
  w : Bool
  a : Bool
  deriving DecidableEq, Repr

def needRead : Need := ⟨true, false, false⟩
def needWrite : Need := ⟨false, true, false⟩
def needAtomic (fetch : Bool) : Need := ⟨fetch, false, true⟩

/-- R125: does what is granted cover what is needed? -/
def Need.within (n : Need) (r w a : Bool) : Bool := (!n.r || r) && (!n.w || w) && (!n.a || a)

/-- ACCESS of R135. -/
def Need.code (n : Need) : Nat := if n.a then (if n.r then 3 else 2) else if n.w then 1 else 0

/-! ### Windows -/

/-- The check of R138 but for the source: state, range and rights. `wb` marks a write-back by the line's owner. -/
def Dev.windowOk (d : Dev) (w at_ : Nat) (n : Need) (srcOk wb : Bool) : Bool :=
  let st := d.rd F.XLT_WCTL_ST w
  (st = 1 || (wb && st = 2)) && decide (at_ < d.rd F.XLT_WCTL_SIZE w * 4096) && srcOk &&
    n.within (d.rd F.XLT_WCTL_R w = 1) (d.rd F.XLT_WCTL_W w = 1) (d.rd F.XLT_WCTL_A w = 1)

/-- The store offset a window gives a byte offset. -/
def Dev.windowOff (d : Dev) (w at_ : Nat) : Nat := d.rd F.XLT_WBASE_BASE w * 4096 + at_

/-- Where an access goes after translation (R133). -/
inductive Loc
  /-- This module: store offset, collar, kennel, and the window it came through. -/
  | here (off collar knl : Nat) (win : Option Nat)
  | remote (addr : Nat)
  | denied (byWindow : Bool)
  | revoked
  deriving DecidableEq, Repr

/-- The kennel check of a located access, with its counts (R54 to R56): accepted requests are in flight. -/
def Dev.checkIn (d : Dev) (off collar : Nat) (win : Option Nat) : Dev × Loc :=
  let r := d.kennelCheck off collar
  let d := d.countReject r
  match r with
  | .ok k =>
    let d := d.bump F.KNL_INFLT_COUNT k
    (match win with
      | some w => d.bump F.XLT_WINFLT_COUNT w
      | none => d, .here off collar k win)
  | .revoked _ => (d, .revoked)
  | .denied _ => (d, .denied false)

/-- Locate an engine access at an output fabric address for a collar. -/
def Dev.locate (d : Dev) (addr collar : Nat) (n : Need) : Dev × Loc :=
  if faNode addr ≠ d.rd F.MAP_NODE_NODE then (d, .remote addr)
  else if faDirect addr then d.checkIn (bits addr 0 47) collar none
  else
    let w := faWindow addr
    let at_ := bits addr 0 36
    if d.windowOk w at_ n (decide (collar = d.rd F.XLT_WCTL_COLLAR w)) false then
      d.checkIn (d.windowOff w at_) (d.rd F.XLT_WCTL_COLLAR w) (some w)
    else (d.inc F.XLT_WREJ_COUNT w, .denied true)

/-! ### Translation caches (R128) -/

/-- The page sizes, as powers of two. -/
def pageSizes : List Nat := [12, 16, 21, 30]

/-- The bay-cache set of a page. -/
def baySet (bay collar s tva : Nat) : Nat := bay * 512 + (bits tva s (57 - s) ^^^ collar) % 512

/-- The shared-cache quarter of a lookup. -/
def quarter (collar tva : Nat) : Nat := (bits tva 30 2 ^^^ bits tva 32 2) ^^^ collar % 4

/-- The shared-cache set of a page. -/
def shrSet (collar s tva : Nat) : Nat := quarter collar tva * 1024 + (bits tva s (57 - s) ^^^ collar) % 1024

/-- Does an entry translate the address for the collar? -/
def Tlb.hits (e : Tlb) (collar tva : Nat) : Bool := e.collar = collar && e.p = bits tva e.s (57 - e.s)

/-- The output address of a translated address. -/
def Tlb.outOf (e : Tlb) (tva : Nat) : Nat := e.out + tva % 2 ^ e.s

/-- Find an entry in a table of sets, probing every page size. -/
def probe (t : Tbl (List Tlb)) (set : Nat → Nat) (collar tva : Nat) : Option (Nat × Tlb) :=
  pageSizes.findSome? fun s =>
    ((tget t (set s)).getD []).findSome? fun e => if e.s = s && e.hits collar tva then some (set s, e) else none

/-- Make an entry the most recently used of its set; a demand hit ends its Scent mark. -/
def promoteTlb (t : Tbl (List Tlb)) (k : Nat) (e : Tlb) : Tbl (List Tlb) :=
  tset t k (((tget t k).getD []).filter (fun (x : Tlb) => x ≠ e) ++ [({ e with scent := false } : Tlb)])

/-- Install an entry in a set of `ways` ways: already present changes nothing; the least recently used leaves. A Scent
entry takes the least recently used position (R131). -/
def installTlb (t : Tbl (List Tlb)) (k ways : Nat) (e : Tlb) : Tbl (List Tlb) :=
  let l := (tget t k).getD []
  if l.any fun x => x.s = e.s && x.p = e.p && x.collar = e.collar then t
  else
    let l := if ways ≤ l.length then l.tail else l
    tset t k (if e.scent then e :: l else l ++ [e])

/-- Install in the shared cache. -/
def Dev.installShr (d : Dev) (e : Tlb) : Dev :=
  { d with shrTlb := installTlb d.shrTlb (shrSet e.collar e.s (e.p * 2 ^ e.s)) 16 e }

/-- Install in a bay's cache. -/
def Dev.installBay (d : Dev) (bay : Nat) (e : Tlb) : Dev :=
  { d with bayTlb := installTlb d.bayTlb (baySet bay e.collar e.s (e.p * 2 ^ e.s)) 8 e }

/-- Keep only the entries of both caches that pass. -/
def Dev.filterTlb (d : Dev) (keep : Tlb → Bool) : Dev :=
  let f (t : Tbl (List Tlb)) : Tbl (List Tlb) :=
    (t.map fun (k, l) => (k, l.filter keep)).filter fun (_, l) => !l.isEmpty
  { d with bayTlb := f d.bayTlb, shrTlb := f d.shrTlb }

/-- A demand lookup in a bay's cache: the entry made most recently used, and a first hit of a Scent entry counted. -/
def Dev.lookupBay (d : Dev) (bay collar tva : Nat) : Dev × Option Tlb :=
  match probe d.bayTlb (fun s => baySet bay collar s tva) collar tva with
  | some (k, e) =>
    let d := if e.scent then d.inc F.XLT_SCENT_USED 0 else d
    ({ d with bayTlb := promoteTlb d.bayTlb k e }, some { e with scent := false })
  | none => (d.inc F.XLT_MISS_BAY 0, none)

/-- A demand lookup in the shared cache, skipped for the quarter of a fenced walker group (R483). -/
def Dev.lookupShr (d : Dev) (collar tva : Nat) : Dev × Option Tlb :=
  if d.bitAt F.RAS_FMASK_WALKERS 0 (quarter collar tva) then (d, none)
  else match probe d.shrTlb (fun s => shrSet collar s tva) collar tva with
    | some (k, e) =>
      let d := if e.scent then d.inc F.XLT_SCENT_USED 0 else d
      ({ d with shrTlb := promoteTlb d.shrTlb k e }, some { e with scent := false })
    | none => (d, none)

/-! ### Running a row whole -/

/-- The block while a row runs whole: the answers the environment still has to give, whether a line it needs is busy
(then the row is no event), what stopped the run, and
the side slot it waits for. -/
structure Run where
  d : Dev
  env : List Reply
  busy : Bool := false
  stop : Option Latch := none
  /-- An unwritten side slot the run waits for: its TVA and VSN (R315). -/
  slot : Option (Nat × Nat) := none

abbrev RM := StateM Run

/-- Change the block. -/
def onDev (f : Dev → Dev) : RM Unit := modify fun r => { r with d := f r.d }

/-- Look at the block. -/
def ofDev (f : Dev → α) : RM α := do return f (← get).d

/-- The next answer of the environment. -/
def nextReply : RM (Option Reply) := modifyGet fun r =>
  match r.env with
  | [] => (none, r)
  | x :: xs => (some x, { r with env := xs })

/-- The first stop of a run is the one that counts. -/
def stopWith (l : Latch) : RM Unit := modify fun r => if r.stop.isSome then r else { r with stop := some l }

/-- Has the run stopped? -/
def stopped : RM Bool := do
  let r ← get
  return r.busy || r.stop.isSome

/-- What an agent's reply to a snoop says. -/
def snoopReply : Option Reply → SnoopAns
  | some (.dirty b) => .dirty b
  | some (.data b) => .dirty b
  | some .done => .ack
  | some .miss => .miss
  | _ => .silent

/-- Let the snooped agents of a transaction answer, in the order the snoops went out, and the members of a sharing group
after them. -/
def answerSnoops (c : Cx) : List Snoop → Txn → RM Txn
  | [], t => return { t with group := 0 }
  | s :: r, t => do
    let a ← nextReply
    let (d, t) := (← get).d.applyAnswer c t s (snoopReply a)
    onDev fun _ => d
    answerSnoops c r t

/-- The members of a sharing group answer the group invalidation; a MISS is counted (R90). -/
def answerGroup (c : Cx) (line : Nat) : Nat → RM Unit
  | 0 => return
  | k + 1 => do
    if (← nextReply) = some .miss then
      onDev fun d => d.inc F.PTR_STALE_COUNT (d.sliceOf c.variant (line * 64))
    answerGroup c line k

/-- Rebuild a page before an engine's access to it (R385): the sources answer block by block, position by position. -/
def rebuildNow (c : Cx) (page : Nat) : RM Unit := do
  let ps := ((← get).d.sources (page / 262144) ((← get).d.rd F.PAK_CFG_POS)).getD []
  onDev fun d => { d.askPage c.tmr page with reqs := d.reqs }
  let mut blocks : List (Nat × List (Nat × Bytes)) := []
  for b in List.range 16 do
    let mut got : List (Nat × Bytes) := []
    for p in ps do
      let x : Bytes := match ← nextReply with
        | some (.data x) => takeBytes 256 x
        | some .done => List.replicate 256 0
        | _ => []
      got := got ++ [(p, x)]
    blocks := blocks ++ [(b, got)]
  let bs := blocks
  onDev fun d => d.putRebuilt c.variant page bs

/-- Run one transaction of a bay's engine to its end: status (R458) and data. Its home snoops, is answered, brings the
page into DRAM and executes. -/
def runTxn (c : Cx) (t : Txn) : RM (Nat × Bytes) := do
  let d := (← get).d
  if (← stopped) then return (0, List.replicate (64 * t.n) 0)
  if !t.want.internal && d.needsRebuild c.variant (t.line / 64) then rebuildNow c (t.line / 64)
  let d := (← get).d
  if d.busyTxn t || d.queuedLine t || d.chFenced c.variant t.line then
    modify fun r => { r with busy := true }
    return (0, List.replicate (64 * t.n) 0)
  else
    let (d, t) := d.snoopLines c t t.n
    onDev fun _ => d
    answerGroup c t.line t.group
    let t ← answerSnoops c t.snoops t
    let before := (← get).d.answers.length
    onDev fun d => d.complete c t
    let d := (← get).d
    match d.answers[before]? with
    | some a =>
      onDev fun d => { d with answers := d.answers.take before }
      return (a.status, a.data)
    | none => return (0, [])

/-! ### Walks (R121 to R126) -/

/-- A translation fault: cause, level, entry and output, and the node that refused it where another node did (R135, R136,
R176). -/
structure XF where
  cause : Nat
  level : Nat := 7
  entry : Nat := 0
  out : Nat := 0
  node : Option Nat := none
  deriving DecidableEq, Repr

/-- Read table lines under collar MODULE; none for a poisoned one. -/
def readTable (c : Cx) (off n : Nat) : RM (Option Bytes) := do
  let t : Txn := { line := off / 64, n := n, collar := 1023, want := .engRead, src := .thread 0 0 0, since := c.tmr }
  let (st, b) ← runTxn c t
  return if st = 3 then none else some b

/-- May a table page be read: an ACTIVE kennel of the function or of PF0, while the store is served (R126, R327)? -/
def Dev.tableOk (d : Dev) (collar off : Nat) : Bool :=
  d.rd F.TIR_CTL_EN = 1 && (match d.kennelAt off with
    | some k => d.rd F.KNL_BIND_STATE k = 1 && (d.rd F.KNL_BIND_COLLAR k = collar || d.rd F.KNL_BIND_COLLAR k = 0)
    | none => false)

/-- The checks of R123 on one entry that are made from the entry alone; the cause, or 0. -/
def entryFault (me l e : Nat) : Nat :=
  let tbl := bit e 1
  let addr := e / 4096 * 4096
  if !bit e 0 then 0x01
  else if bits e 6 6 ≠ 0 || (bit e 5 && l ≠ 0) || (tbl && bits e 47 17 ≠ 0) then 0x07
  else if (tbl && l = 0) || (!tbl && 3 ≤ l) then 0x04
  else if tbl then 0
  else if (l = 2 && bits e 12 18 ≠ 0) || (l = 1 && bits e 12 9 ≠ 0) then 0x05
  else if (faNode addr ≠ me && faDirect addr) || (faDirect addr && bits addr 47 2 ≠ 0) then 0x08
  else 0

/-- Is a 16-entry group of contiguous leaves consistent (R124)? -/
def contigOk (es : List Nat) : Bool :=
  match es with
  | [] => false
  | e0 :: _ =>
    bits e0 12 4 = 0 && (List.range 16).all fun i =>
      let e := es.getD i 0
      bit e 0 && !bit e 1 && bit e 5 && bits e 2 3 = bits e0 2 3 && e / 4096 = e0 / 4096 + i

/-- Walk the levels of a list from a table page (R121, R123): the translation and its leaf entry, or the fault. DEDUCED (log 40). -/
def walkLevels (c : Cx) (collar tva : Nat) : List Nat → Nat → Need → Nat → RM (Except XF (Tlb × Nat))
  | [], _, _, e => return .error { cause := 0x04, level := 0, entry := e }
  | l :: rest, table, n, parent => do
    if !(← get).d.tableOk collar table then return .error { cause := 0x09, level := l, entry := parent }
    else
      let idx := bits tva (12 + 9 * l) 9
      match ← readTable c ((table + idx * 8) / 64 * 64) 1 with
      | none => return .error { cause := 0x0A, level := l, entry := parent }
      | some b =>
        let e := leNat ((b.drop (idx % 8 * 8)).take 8)
        let me := (← get).d.rd F.MAP_NODE_NODE
        let n : Need := ⟨n.r && bit e 2, n.w && bit e 3, n.a && bit e 4⟩
        let f := entryFault me l e
        if f ≠ 0 then return .error { cause := f, level := l, entry := e }
        else if bit e 1 then walkLevels c collar tva rest (bits e 12 35 * 4096) n e
        else if bit e 5 then
          match ← readTable c (table + idx / 16 * 128) 2 with
          | none => return .error { cause := 0x0A, level := l, entry := parent }
          | some g =>
            let es := elems 8 16 g
            if contigOk es then
              return .ok ({ collar := collar, s := 16, p := bits tva 16 41, out := es.headD 0 / 4096 * 4096,
                            r := n.r, w := n.w, a := n.a }, e)
            else return .error { cause := 0x06, level := l, entry := e }
        else
          let s := 12 + 9 * l
          return .ok ({ collar := collar, s := s, p := bits tva s (57 - s), out := e / 4096 * 4096,
                        r := n.r, w := n.w, a := n.a }, e)

/-- The levels of a function's walk, from the root (R120). -/
def Dev.levels (d : Dev) (f : Nat) : List Nat := if d.rd F.FN_XLT_ROOT_LEVELS f = 1 then [4, 3, 2, 1, 0] else [3, 2, 1, 0]

/-- ROOT and NONCANON, found before any table is read (R120, R135). -/
def Dev.rootFault (d : Dev) (f tva : Nat) : Option XF :=
  let top := if d.rd F.FN_XLT_ROOT_LEVELS f = 1 then 4 else 3
  if d.rd F.FN_XLT_ROOT_EN f = 0 then some { cause := 0x0D, level := top }
  else if tva / 2 ^ (if top = 4 then 57 else 48) ≠ 0 then some { cause := 0x03, level := top }
  else none

/-- A whole walk of one address. -/
def walk (c : Cx) (collar tva : Nat) : RM (Except XF (Tlb × Nat)) := do
  let d := (← get).d
  walkLevels c collar tva (d.levels collar) (d.rd F.FN_XLT_ROOT_ROOT collar * 4096) ⟨true, true, true⟩ 0

/-- The leaf level of a cached page (R135). -/
def Tlb.level (e : Tlb) : Nat := if e.s = 30 then 2 else if e.s = 21 then 1 else 0

/-- Translate for a bay's engine: bay cache, shared cache, walk; then the rights (R125). A fault
found on a cached translation names no entry (R135). -/
def translate (c : Cx) (bay collar tva : Nat) (n : Need) : RM (Except XF Nat) := do
  match (← get).d.rootFault collar tva with
  | some f => return .error f
  | none =>
    let done (e : Tlb) (leaf : Nat) : Except XF Nat :=
      if n.within e.r e.w e.a then .ok (e.outOf tva) else .error { cause := 0x02, level := e.level, entry := leaf }
    let (d, hit) := (← get).d.lookupBay bay collar tva
    onDev fun _ => d
    match hit with
    | some e => return done e 0
    | none =>
      let (d, hit) := (← get).d.lookupShr collar tva
      onDev fun _ => d
      match hit with
      | some e =>
        onDev fun d => d.installBay bay e
        return done e 0
      | none =>
        onDev fun d => d.inc F.XLT_MISS_WALK 0
        match ← walk c collar tva with
        | .error f => return .error f
        | .ok (e, leaf) =>
          onDev fun d => (d.installShr e).installBay bay e
          return done e leaf

/-! ### Accesses of a run -/

/-- Who runs: bay, thread, the collar whose accesses are made, the service class they are charged to, and the deadline
(none when it is to be ignored). -/
structure Who where
  c : Cx
  bay : Nat
  thr : Nat
  collar : Nat
  cls : Nat
  deadline : Option Nat := none
  deriving DecidableEq, Repr

/-- Stop a run for a translation fault (R134, R135). Which stream it is attributed to is the loaded image's (R587). DEDUCED (log 40). -/
def stopXlate (w : Who) (f : XF) (tva : Nat) (n : Need) : RM Unit := do
  let (v, d) := (← get).d.pick
  onDev fun _ => d
  stopWith { status := 0x11, type := 0x01, engine := 7, step := 0, node := f.node, w20 := tva,
             w28 := f.cause + 2 ^ 8 * f.level + 2 ^ 11 * n.code + 2 ^ 16 * (4 * w.thr + v % 4), w30 := f.entry,
             w38 := f.out }

/-- Stop a run for a poisoned line (R178). -/
def stopPoison (off : Nat) (remote : Option Nat) : RM Unit :=
  stopWith { status := 0x14, type := 0x02, engine := 8, step := 0, node := remote, w20 := off,
             w28 := 1 + (if remote.isSome then 2 ^ 32 else 0) }

/-- RAS_TMO.FABRIC in milliseconds: 10 to 1000, other values act as 50. -/
def Dev.fabricMs (d : Dev) : Nat :=
  let v := d.rd F.RAS_TMO_FABRIC
  if 10 ≤ v && v ≤ 1000 then v else 50

/-- Send a request of an engine to another node's home and take its answer: status and data. A request with no answer
stops the run with TIMEOUT and a FABRIC_TIMEOUT record (R485, R486); it was sent on the link R66 chooses. One that the switch
cannot deliver is answered with DENIED (R465). DESIGN CHOICE (log 14). -/
def remoteReq (w : Who) (mtype addr attr param : Nat) (payload : Bytes) (len : Nat) : RM (Nat × Bytes) := do
  if (← stopped) then return (0, [])
  else
    let d := (← get).d
    let me := d.rd F.MAP_NODE_NODE
    let node := faNode addr
    let tag := d.newTag
    let link := chooseLink (d.eligible node) (addr % 2 ^ 50) node me
    let d := match link with
      | some l => (d.chargePort (12 + l / 4) w.collar w.cls len).emit (.msg
          { mtype := mtype, dst := node, src := me, tag := tag, attr := attr, off := addr % 2 ^ 50, param := param,
            payload := payload })
      | none => d
    onDev fun _ => if link.isSome then d else d.inc F.MAP_RSTAT_UNROUTABLE 0
    let ans ← if link.isSome then nextReply else pure (some (.status 1))
    match ans with
    | some (.data b) => return (0, b)
    | some (.dirty b) => return (0, b)
    | some .done => return (0, [])
    | some (.status s) => return (s, [])
    | _ =>
      let vc := if mtype = 0x10 || mtype = 0x11 then 4 else if mtype = 0x18 || mtype = 0x19 then 5 else 0
      onDev fun d => { d with deadTags := tset d.deadTags tag (w.c.tmr + 3 * d.fabricMs * 100000) }
      stopWith { status := 0x18, type := 0x05, engine := 10, step := 0, node := some node, w20 := addr,
                 w28 := mtype + 2 ^ 7 * vc + 2 ^ 10 * link.getD 0 + 2 ^ 17 * (if link.isSome then 1 else 0) + 2 ^ 18 * tag,
                 w30 := d.fabricMs }
      return (0, [])

/-- Act on the status of an answer from another node (R133, R134, R588). -/
def remoteStatus (w : Who) (st addr tva : Nat) (n : Need) : RM Unit :=
  match st with
  | 0 => return
  | 1 => stopXlate w { cause := 0x0C, out := addr, node := some (faNode addr) } tva n
  | 2 => stopWith { status := 0x13, type := 0, engine := 0, step := 0 }
  | 3 => stopPoison addr (some (faNode addr))
  | _ => stopWith { status := 0x10, type := 0, engine := 0, step := 0 }

/-- Would a read of a page be SLOW for a deadline (R352)? -/
def Dev.slow (d : Dev) (c : Cx) (deadline : Option Nat) (page : Nat) : Bool :=
  match deadline with
  | none => false
  | some dl =>
    d.misses page &&
      decide (dl < c.tmr + 100 * d.rd F.TIR_DLCFG_BASE +
        ceilDiv (d.rd F.TIR_DLCFG_PER * d.rd F.FLS_QUEUE_QUEUED (d.channelOf c.variant (page * 4096))) 10)

/-- The outcome of locating one piece of an access. -/
inductive Spot
  | at_ (off collar knl : Nat) (win : Option Nat)
  | far (addr : Nat)
  | none
  deriving DecidableEq, Repr

/-- Locate an output fabric address for a run; a refusal stops the run. -/
def spotAddr (w : Who) (out tva : Nat) (n : Need) : RM Spot := do
  if (← stopped) then return .none
  else
    let (d, loc) := (← get).d.locate out w.collar n
    onDev fun _ => d
    match loc with
    | .here off col k win => return .at_ off col k win
    | .remote a => return .far a
    | .denied byWin =>
      stopXlate w { cause := if byWin then 0x0C else 0x0B, out := out } tva n
      return .none
    | .revoked =>
      stopWith { status := 0x13, type := 0, engine := 0, step := 0 }
      return .none

/-- Translate and locate one address for a run; a fault or refusal stops the run. -/
def spot (w : Who) (tva : Nat) (n : Need) : RM Spot := do
  if (← stopped) then return .none
  else match ← translate w.c w.bay w.collar tva n with
    | .error f =>
      stopXlate w f tva n
      return .none
    | .ok out => spotAddr w out tva n

/-- The runs of lines within one granule that [tva, tva + len) covers: first byte and length of each piece, within one
256-byte granule. -/
def pieces : Nat → Nat → Nat → List (Nat × Nat)
  | 0, _, _ => []
  | fuel + 1, tva, len =>
    if len = 0 then []
    else
      let n := min len (256 - tva % 256)
      (tva, n) :: pieces fuel (tva + n) (len - n)

/-- Read one piece within a granule: its bytes. -/
def readPiece (w : Who) (tva len : Nat) : RM Bytes := do
  let zero := List.replicate len (0 : Byte)
  match ← spot w tva needRead with
  | .none => return zero
  | .at_ off col k win =>
    let line := off / 64
    let n := (off % 64 + len + 63) / 64
    onDev fun d => d.chargePort (d.stackOf w.c.variant off) w.collar w.cls (64 * n)
    let t : Txn := { line := line, n := n, collar := col, want := .engRead, src := .thread w.bay w.thr 0, knl := some k,
                     win := win, since := w.c.tmr }
    let (st, b) ← runTxn w.c t
    if st = 3 then
      stopPoison (line * 64) none
      return zero
    else return (b.drop (off % 64)).take len
  | .far addr =>
    let n := (addr % 64 + len + 63) / 64
    let (st, b) ← remoteReq w 0x04 (addr / 64 * 64) (n - 1) 0 [] (64 * n)
    remoteStatus w st addr tva needRead
    return if st = 0 then takeBytes len (b.drop (addr % 64)) else zero

/-- Write one piece within a granule: the bytes whose bit of the mask is 1. -/
def writePiece (w : Who) (tva mask : Nat) (b : Bytes) : RM Unit := do
  match ← spot w tva needWrite with
  | .none => return
  | .at_ off col k win =>
    let pos := off % 64
    let n := (pos + b.length + 63) / 64
    onDev fun d => d.chargePort (d.stackOf w.c.variant off) w.collar w.cls b.length
    let t : Txn := { line := off / 64, n := n, collar := col,
                     want := .write (mask * 2 ^ pos) (takeBytes (64 * n) (List.replicate pos 0 ++ b)),
                     src := .thread w.bay w.thr 0, knl := some k, win := win, since := w.c.tmr }
    let (st, _) ← runTxn w.c t
    if st = 3 then stopPoison (off / 64 * 64) none
  | .far addr =>
    let pos := addr % 64
    let n := (pos + b.length + 63) / 64
    if mask = 2 ^ b.length - 1 && pos = 0 && b.length % 64 = 0 then
      let (st, _) ← remoteReq w 0x05 addr (n - 1) 0 b b.length
      remoteStatus w st addr tva needWrite
    else
      for i in List.range n do
        let m := bits (mask * 2 ^ pos) (64 * i) 64
        if m ≠ 0 then
          let lb := takeBytes 64 ((List.replicate pos (0 : Byte) ++ b).drop (64 * i))
          let (st, _) ← remoteReq w 0x06 (addr / 64 * 64 + 64 * i) 0 m lb 64
          remoteStatus w st addr tva needWrite

/-- Read [tva, tva + len). -/
def readVa (w : Who) (tva len : Nat) : RM Bytes := do
  let mut out : Bytes := []
  for p in pieces (len / 256 + 2) tva len do
    if !(← stopped) then
      let b ← readPiece w p.1 p.2
      out := out ++ b
  return takeBytes len out

/-- Write bytes at tva. -/
def writeVa (w : Who) (tva : Nat) (b : Bytes) : RM Unit := do
  for p in pieces (b.length / 256 + 2) tva b.length do
    if !(← stopped) then writePiece w p.1 (2 ^ p.2 - 1) ((b.drop (p.1 - tva)).take p.2)

/-- Read one 8-byte word. -/
def readWord (w : Who) (tva : Nat) : RM Nat := do return leNat (← readVa w tva 8)

/-- Write one 8-byte word. -/
def writeWord (w : Who) (tva v : Nat) : RM Unit := writeVa w tva (leBytes 8 v)

/-- An atomic at a located spot: the old bytes when it fetches. -/
def atomicSpot (w : Who) (sp : Spot) (tva : Nat) (a : AtomOp) : RM Bytes := do
  match sp with
  | .none => return takeBytes a.operand.length []
  | .at_ off col k win =>
    let a := { a with at_ := if a.whole then 0 else off % 64 }
    let t : Txn := { line := off / 64, collar := col, want := .atomic a, src := .thread w.bay w.thr 0, knl := some k,
                     win := win, since := w.c.tmr }
    onDev fun d => d.chargePort (d.stackOf w.c.variant off) w.collar w.cls a.operand.length
    let (st, b) ← runTxn w.c t
    if st = 3 then stopPoison (off / 64 * 64) none
    return takeBytes a.operand.length b
  | .far addr =>
    let par := a.aop + 2 ^ 4 * a.ety + 2 ^ 7 * (if a.fetch then 1 else 0) + 2 ^ 8 * (if a.whole then 1 else 0)
    let slot : Bytes := if a.whole then a.operand
      else if a.aop = 1 then takeBytes 8 a.cmp ++ takeBytes 8 a.operand
      else takeBytes 16 (List.replicate (addr % 16) 0 ++ a.operand)
    let (st, b) ← remoteReq w 0x10 addr 0 par slot slot.length
    remoteStatus w st addr tva (needAtomic a.fetch)
    return takeBytes a.operand.length b

/-- An atomic on one element or one whole line: the old bytes when it fetches. -/
def atomicVa (w : Who) (tva : Nat) (a : AtomOp) : RM Bytes := do
  let sp ← spot w tva (needAtomic a.fetch)
  atomicSpot w sp tva a

/-- Do something whose failure does not stop the run: what stopped it, if anything did. -/
def attempt (m : RM Unit) : RM (Option Latch) := do
  let before := (← get).stop
  modify fun r => { r with stop := none }
  m
  let got := (← get).stop
  modify fun r => { r with stop := before }
  return got

/-- Would a read at this address be SLOW (R352)? Only pages of this module can be. -/
def slowAt (w : Who) (tva : Nat) : RM Bool := do
  if w.deadline.isNone || (← stopped) then return false
  else match ← translate w.c w.bay w.collar tva needRead with
    | .error _ => return false
    | .ok out =>
      let d := (← get).d
      if faNode out ≠ d.rd F.MAP_NODE_NODE then return false
      else
        let off := if faDirect out then bits out 0 47 else d.windowOff (faWindow out) (bits out 0 36)
        return d.slow w.c w.deadline (off / 4096)

end Sys2Proof.Machine
end

