-- ==== Sys2Proof/Machine/Trans.lean ====
section
/-! DEFINITION. The transition controller (spec/01, R38 to R41): one transition runs, higher ones suspend it. -/
namespace Sys2Proof.Machine

/-- The priority of a transition (R38). -/
def Tr.prio : Tr → Nat
  | .moduleReset _ => 1
  | .rollback _ => 2
  | .heel => 3
  | .revoke _ => 4
  | .quiesce _ => 5
  | .ringReset _ => 6
  | .mapApply => 7

/-- The object of a transition (SYS_XSTAT.ARG). -/
def Tr.arg : Tr → Nat
  | .quiesce f => f
  | .ringReset r => r
  | .revoke k => k
  | _ => 0

/-- The transition that runs. -/
def Dev.active (d : Dev) : Option Tr := d.running.head?.map (·.tr)

/-- May this transition start now: it is requested, it is the first of the highest priority requested, and it has
priority over the one that runs (R38, R39)? DEDUCED (log 27). -/
def Dev.canStart (d : Dev) (t : Tr) : Bool :=
  d.wanted.contains t && d.wanted.all (fun u => t.prio ≤ u.prio) &&
    (d.wanted.find? fun u => u.prio = t.prio) = some t &&
    (match d.active with
      | none => true
      | some r => t.prio < r.prio)

/-- Start a transition; one that ran is suspended. DEDUCED (log 27). -/
def Dev.begin (d : Dev) (c : Cx) (t : Tr) : Dev :=
  { d with wanted := d.wanted.filter (· ≠ t), running := ⟨t, c.tmr⟩ :: d.running }

/-- Does this transition run, not suspended? -/
def Dev.runs (d : Dev) (t : Tr) : Bool := d.active = some t

/-- Since when. -/
def Dev.runsSince (d : Dev) (t : Tr) : Nat := ((d.running.find? (·.tr = t)).map (·.since)).getD 0

/-- End a transition and count it. -/
def Dev.finish (d : Dev) (t : Tr) : Dev :=
  ({ d with running := d.running.filter (·.tr ≠ t) }).bump F.SYS_XSTAT_DONE_COUNT 0

/-- End a transition without counting it (R40, R41). DEDUCED (log 27). -/
def Dev.supersede (d : Dev) (p : Tr → Bool) : Dev :=
  { d with running := d.running.filter (fun r => !p r.tr), wanted := d.wanted.filter (fun t => !p t) }

/-- Ask for a module reset (R489): absorbed during one, during steps 1 to 7 of start-up and during an orderly power-down
(R548), without effect on a module that is lost or off, and one too many within the hour makes the module lost instead, which the
caller does (true). DEDUCED (log 24). -/
def Dev.askReset (d : Dev) (c : Cx) (cause : Nat) : Dev × Bool :=
  let hour := d.resetTimes.filter fun t => c.tmr < t + 360000000000
  if d.lostFor ≠ 0 || 8 ≤ d.rd F.PWR_SEQ_PHASE then (d, false)
  else if d.running.any (fun r => r.tr.prio = 1) || d.wanted.any (fun t => t.prio = 1) || d.upStep ≠ 0 ||
      d.rd F.PWR_SEQ_PHASE = 7 then
    (d.inc F.RAS_STAT_ABSORBED 0, false)
  else if max 1 (d.rd F.RAS_CFG_MAXRST) ≤ hour.length then (d, true)
  else ({ d with wanted := d.wanted ++ [.moduleReset cause] }, false)

end Sys2Proof.Machine
end

