-- ==== Sys2Proof/Machine/Shep.lean ====
section
/-! DEFINITION. Shepherds (spec/06): step words, threads, conditions and the next step, the fault latch, the end of a
run, the step trace, and what events outside a run do to threads and queues (R193). -/
namespace Sys2Proof.Machine

/-! ### Step words -/

/-- A step word (R194). -/
structure Step where
  unit : Nat
  op : Nat
  fmt : Nat
  dst : Nat
  srca : Nat
  srcb : Nat
  lreg : Nat
  lenEn : Bool
  imm : Nat
  csel : Nat
  cinv : Bool
  lcsel : Nat
  lcdec : Bool
  nextT : Nat
  nextF : Nat
  deriving DecidableEq, Repr

/-- The fields of the two words of a step word. -/
def Step.decode (w0 w1 : Nat) : Step :=
  { unit := bits w0 0 4, op := bits w0 4 8, fmt := bits w0 12 4, dst := bits w0 16 12, srca := bits w0 28 12,
    srcb := bits w0 40 12, lreg := bits w0 52 5, lenEn := bit w0 57, imm := bits w1 0 24, csel := bits w1 24 4,
    cinv := bit w1 28, lcsel := bits w1 29 2, lcdec := bit w1 31, nextT := bits w1 32 14, nextF := bits w1 46 14 }

/-- The step word in a slot of step-table memory. -/
def Dev.stepAt (d : Dev) (slot : Nat) : Step :=
  Step.decode ((tget d.steps (2 * slot)).getD 0) ((tget d.steps (2 * slot + 1)).getD 0)

/-- The entry of an opcode: entry step and VALID (R213). -/
def Dev.entryOf (d : Dev) (op : Nat) : Nat × Bool :=
  let e := bits ((tget d.steps (2 * op / 8)).getD 0) (16 * (op % 4)) 16
  (e % 2 ^ 14, bit e 15)

/-- KIND and INDEX of an operand reference (R195). -/
def kindOf (ref : Nat) : Nat := bits ref 8 4
def idxOf (ref : Nat) : Nat := bits ref 0 8

/-! ### Threads -/

/-- The number of a thread in the module. -/
def thrKey (bay thr : Nat) : Nat := bay * 8 + thr

/-- The thread, when it is not FREE. -/
def Dev.thread (d : Dev) (bay thr : Nat) : Option Thread := tget d.threads (thrKey bay thr)

/-- Put a thread back. -/
def Dev.putThread (d : Dev) (bay thr : Nat) (t : Thread) : Dev :=
  { d with threads := tset d.threads (thrKey bay thr) t }

/-- A scalar operand (R195): a scalar register, a descriptor word, IMM or a loop counter; anything else reads 0. -/
def Thread.val (t : Thread) (s : Step) (ref : Nat) : Nat :=
  match kindOf ref with
  | 2 => (tget t.sreg (idxOf ref % 32)).getD 0
  | 4 => t.words.getD (idxOf ref % 8) 0
  | 5 => s.imm
  | 8 => (tget t.lc (idxOf ref % 4)).getD 0
  | _ => 0

/-- Set a scalar register. -/
def Thread.setS (t : Thread) (i v : Nat) : Thread := { t with sreg := tput 0 t.sreg (i % 32) (v % 2 ^ 64) }

/-- The active element count (R194): S[LREG] within 1 to 512, or all 512. -/
def Thread.active (t : Thread) (s : Step) : Nat :=
  if s.lenEn then max 1 (min 512 ((tget t.sreg s.lreg).getD 0)) else 512

/-- Is a load pending on an operand's register (R205)? -/
def Thread.pending (t : Thread) (ref : Nat) : Bool :=
  (kindOf ref = 1 || kindOf ref = 2) && t.accs.any fun a => a.fetch && a.dst = ref

/-- Set or clear flags by mask. -/
def Thread.setFlag (t : Thread) (n : Nat) (on : Bool) : Thread :=
  let v := if bit t.flags n then t.flags - 2 ^ n else t.flags
  { t with flags := if on then v + 2 ^ n else v, unk := if bit t.unk n then t.unk - 2 ^ n else t.unk }

/-- The access flags of R200: SEND to ABSENT, SLOW to ACCERR. -/
def accessFlags : List Nat := [4, 5, 6, 7, 11, 12, 13, 14, 15]

/-- Clear the flags an access step reports before it issues. -/
def Thread.clearAccess (t : Thread) : Thread := accessFlags.foldl (fun t n => t.setFlag n false) t

/-- Bytes of a vector register. -/
def Dev.vget (d : Dev) (tk v at_ n : Nat) : Bytes :=
  (List.range n).map fun i => (tget d.vregs ((tk * 16 + v) * 2048 + at_ + i)).getD 0

/-- Write bytes of a vector register, inside its 2 KiB. -/
def Dev.vput (d : Dev) (tk v at_ : Nat) (b : Bytes) : Dev :=
  { d with vregs := memPut d.vregs ((tk * 16 + v) * 2048 + at_) (b.take (2048 - at_)) }

/-- Bytes of a thread's scratch partition. -/
def Dev.sget (d : Dev) (tk at_ n : Nat) : Bytes :=
  (List.range n).map fun i => (tget d.scratch (tk * 524288 + at_ + i)).getD 0

/-- Write bytes of a thread's scratch partition. -/
def Dev.sput (d : Dev) (tk at_ : Nat) (b : Bytes) : Dev :=
  { d with scratch := memPut d.scratch (tk * 524288 + at_) b }

/-- Every byte of a thread's vector registers reads as zero again (R191). -/
def Dev.vclear (d : Dev) (tk : Nat) : Dev := { d with vregs := memClear d.vregs (tk * 32768) 32768 }

/-- Fill the fault latch with a run's first fault (R207). -/
def Thread.latchFault (t : Thread) (l : Latch) : Thread := if t.latch.isSome then t else { t with latch := some l }

/-! ### Conditions -/

/-- Add a trace entry of a bay (R217): the next entry, or nothing once the buffer is full and TRACE_STOP is 1. DESIGN CHOICE (log 52). -/
def Dev.traceAdd (d : Dev) (bay : Nat) (e : TraceEnt) : Dev :=
  if d.rd F.SHP_TRPTR_STOPPED bay = 1 then d
  else
    let n := d.rd F.SHP_TRPTR_NEXT bay
    let d := { d with trace := tset d.trace (bay * 1024 + n) e }
    let d := d.wr F.SHP_TRPTR_NEXT bay ((n + 1) % 1024)
    let d := if n = 1023 then d.wr F.SHP_TRPTR_WRAPPED bay 1 else d
    if n = 1023 && d.rd F.SHP_CTL_TRACE_STOP bay = 1 then d.wr F.SHP_TRPTR_STOPPED bay 1 else d

/-- Evaluate the condition and select the next step (R199): LCDEC first, then the flag, then NEXT_T or NEXT_F; the
selection is counted and traced. -/
def Dev.select (d : Dev) (c : Cx) (bay thr : Nat) : Dev :=
  match d.thread bay thr with
  | none => d
  | some t =>
    let s := d.stepAt t.step
    let lc0 := (tget t.lc s.lcsel).getD 0
    let lc := if s.lcdec then lc0 - 1 else lc0
    let t := { t with lc := tput 0 t.lc s.lcsel lc }
    let t := (t.setFlag 0 true).setFlag 1 (lc = 0)
    let t := t.setFlag 10 (match t.deadline with
      | some dl => decide (dl ≤ c.tmr)
      | none => false)
    let taken := bit t.flags s.csel != s.cinv
    let next := if taken then s.nextT else s.nextF
    let d := d.bump F.SHP_STEPS_COUNT bay
    let d := if d.rd F.SHP_CTL_TRACE_EN bay = 1 && d.bitAt F.SHP_CTL_TRACE_THR bay thr then
        let (cy, d) := d.pick
        d.traceAdd bay
          { w0 := cy % 2 ^ 48 + 2 ^ 48 * thr,
            w1 := t.step + 2 ^ 16 * next + 2 ^ 32 * t.flags + 2 ^ 48 * (if taken then 1 else 0) + 2 ^ 49 * s.unit +
              2 ^ 53 * s.op,
            w2 := t.idx + 2 ^ 32 * t.collar + 2 ^ 42 * t.op, w3 := lc }
      else d
    d.putThread bay thr { t with step := next, sel := false, wait := 0, state := 1 }

/-- Is an access of a class still outstanding (R204): 1 loads, 2 stores and atomics, 3 both? -/
def Thread.owes (t : Thread) (cls : Nat) : Bool :=
  t.accs.any fun a =>
    (bit cls 0 && (a.kind = 0 || a.kind = 3 || (a.kind = 2 && a.fetch))) || (bit cls 1 && (a.kind = 1 || a.kind = 2 || a.kind = 4))

/-- A thread whose step has issued selects its next step once the flag it selects is known and, for a WAIT, its class of
accesses has finished; until then it is STALLED (R192, R200, R204). -/
def Dev.trySelect (d : Dev) (c : Cx) (bay thr : Nat) : Dev :=
  match d.thread bay thr with
  | none => d
  | some t =>
    if !t.sel || t.state = 3 then d
    else
      let s := d.stepAt t.step
      if (t.wait ≠ 0 && t.owes t.wait) || bit t.unk s.csel then d.putThread bay thr { t with state := 2 }
      else d.select c bay thr

/-! ### The end of a run -/

/-- The fault record of a run (R175, R208). DESIGN CHOICE (log 52). -/
def Dev.runRecord (_d : Dev) (t : Thread) (bay thr : Nat) (l : Latch) : FRec :=
  { type := l.type, cls := 0, collar := t.collar, ring := some t.ring, desc := some (t.idx, t.op),
    bay := some (bay, thr, l.step), engine := l.engine, node := l.node, w20 := l.w20, w28 := l.w28, w30 := l.w30,
    w38 := l.w38 }

/-- Write a latch's record, and the result its status gives (R208, R588). -/
def Dev.latchRes (d : Dev) (c : Cx) (t : Thread) (bay thr : Nat) (l : Latch) (r : Res) : Dev × Res :=
  if l.type = 0 then
    (d, { r with status := l.status, frec := 0, ra := if l.status = 0x10 then 0xFFFFFFFF else r.ra })
  else
    let (d, frec) := d.fault2 c.tmr (d.runRecord t bay thr l)
    (d, { r with status := l.status, frec := frec })

/-- A run whose accesses have all finished resolves its end (R206, R208). PARK belongs to ROW_MIGRATE alone; any other
opcode's completes with HW_ERROR (R197). -/
def Dev.resolveDone (d : Dev) (c : Cx) (bay thr : Nat) : Dev :=
  match d.thread bay thr with
  | none => d
  | some t =>
    match t.done with
    | none => d
    | some (k, r) =>
      if !t.accs.isEmpty || t.res.isSome || t.park || t.discard then d
      else
        match t.latch with
        | some l =>
          if !l.written && (k = 1 || k = 2 || r.status ≤ 3) then
            let (d, r) := d.latchRes c t bay thr l r
            d.putThread bay thr { t with latch := some { l with written := true }, res := some r }
          else d.putThread bay thr { t with res := some r }
        | none =>
          if k = 2 && t.op = 0x13 then d.putThread bay thr { t with park := true }
          else if k = 2 then
            let l : Latch := { status := 0x16, type := 0x03, engine := 0, step := t.step, w20 := 2 ^ 20 }
            let (d, r) := d.latchRes c t bay thr l r
            d.putThread bay thr { t with res := some r }
          else d.putThread bay thr { t with res := some r }

/-- A run stops issuing and drains (R192). -/
def Dev.drain (d : Dev) (c : Cx) (bay thr : Nat) (k : Nat) (r : Res) : Dev :=
  match d.thread bay thr with
  | none => d
  | some t => (d.putThread bay thr { t with state := 3, sel := false, done := some (k, { r with bay := some bay }) }).resolveDone c bay thr

/-- End a run with a fault of its own: the latch takes it whatever it held when `force` (R211), and the run completes with
the latch's status. -/
def Dev.endFault (d : Dev) (c : Cx) (bay thr : Nat) (l : Latch) (force : Bool) : Dev :=
  match d.thread bay thr with
  | none => d
  | some t =>
    let t := if force then { t with latch := some l } else t.latchFault l
    (d.putThread bay thr t).drain c bay thr 1 { status := l.status }

/-! ### Jobs -/

/-- Change the job of a ring's descriptor. -/
def Dev.updJob (d : Dev) (ring idx : Nat) (f : Job → Job) : Dev :=
  { d with jobs := mapIf (fun j => j.ring = ring && j.idx = idx) f d.jobs }

/-- The job of a ring's descriptor. -/
def Dev.job (d : Dev) (ring idx : Nat) : Option Job := d.jobs.find? fun j => j.ring = ring && j.idx = idx

/-- A descriptor has ended: its completion is due. -/
def Dev.endJob (d : Dev) (ring idx : Nat) (r : Res) : Dev := d.updJob ring idx fun j => { j with place := .ended r }

/-- Superseded shadows are freed at the later of two moments (R350): no descriptor that started before the switch still
runs, and the switch's epoch has ended. -/
def Dev.sweepShadows (d : Dev) : Dev :=
  let cur := d.rd F.EPC_EPOCH_EPOCH
  { d with tens := d.tens.filter fun (_, e) => match e.ended with
      | some x => !(e.endEpoch ≠ cur || cur = 0) || d.threads.any fun (_, t) => decide (t.start < x)
      | none => true }

/-- A drained thread becomes FREE (R192): its completion is handed over, its descriptor parked, or nothing handed over;
its search contexts and its part of the coalescing table are empty. -/
def Dev.freeThread (d : Dev) (bay thr : Nat) (t : Thread) : Dev :=
  let k := thrKey bay thr
  let d := { d with threads := tdel d.threads k, coal := tdel d.coal k,
                    pq := d.pq.filter fun (q, _) => q / 8 ≠ k }.sweepShadows
  if t.discard then d
  else if t.park then
    let (skipped, late) := match t.done with
      | some (_, r) => (r.rb, decide (r.status = 3))
      | none => (0, false)
    d.updJob t.ring t.idx fun j => { j with place := .parked bay skipped late }
  else match t.res with
    | some r => d.endJob t.ring t.idx r
    | none => d

/-! ### Bays -/

/-- Does a bay accept descriptors (R25, R27, R535): its domain and its cluster on, the cluster loaded, not fenced? -/
def Dev.usable (d : Dev) (b : Nat) : Bool :=
  !d.bitAt F.RAS_FMASK_BAYS 0 b && !d.bitAt F.RAS_FMASK_CLUSTERS 0 (b / 4) && d.rd F.PWR_DCTL_STATE b = 1 &&
    d.rd F.PWR_DCTL_STATE (100 + b / 4) = 1 && d.rd F.SHP_CLSTAT_LOADED (b / 4) = 1

/-- Descriptors in a bay's dispatch queue, oldest first. -/
def Dev.queueOf (d : Dev) (b : Nat) : List Job := d.jobs.filter fun j => j.place = .queued b

/-- Descriptors a bay holds: queued and running. -/
def Dev.loadOf (d : Dev) (b : Nat) : Nat :=
  (d.jobs.filter fun j => match j.place with
    | .queued x => x = b
    | .running x _ => x = b
    | _ => false).length

/-- The queued descriptors of a bay return to the ring manager, which places each again; with no room anywhere its ring
holds DISPATCH (R193). -/
def Dev.requeue (d : Dev) (b : Nat) : Dev :=
  let rings := (d.queueOf b).map (·.ring)
  let d := { d with jobs := mapIf (fun j => j.place = .queued b) (fun j => { j with place := .waiting }) d.jobs }
  rings.foldl (fun d r => d.setBit F.RNG_HOLD_HOLD r 5 true) d

/-- Threads of a bay that are not FREE. -/
def Dev.threadsOf (d : Dev) (b : Nat) : List (Nat × Thread) := d.threads.filter fun (k, _) => k / 8 = b

/-- Fence a bay for a lasting fault (R193): threads stop and complete with HW_ERROR and a record naming the storage;
queued descriptors go back to the ring manager. -/
def Dev.fenceBay (d : Dev) (c : Cx) (b struct : Nat) : Dev :=
  let d := d.setBit F.RAS_FMASK_BAYS 0 b true
  let d := ((d.threadsOf b).filter fun (_, t) => t.state ≠ 3).foldl (fun d (k, t) =>
    d.endFault c b (k % 8) { status := 0x16, type := 0x03, engine := 1, step := t.step,
                             w20 := struct + 2 ^ 8 * b + 2 ^ 20 } false) d
  d.requeue b

end Sys2Proof.Machine
end

