-- ==== Sys2Proof/Machine/Ras.lean ====
section
/-! DEFINITION. Errors and lasting faults (spec/15): leaky counters and what crossing a threshold retires (R482 to R484),
the effect of an uncorrectable error (R480, R481), frame retirement (spec/10, R355, R356), the loss of the module (R494),
and requests for a module reset (R489, R492). -/
namespace Sys2Proof.Machine

/-! ### Losing the module -/

/-- The module is lost (R494): the record to PF0 and the sideband, the proposal of its own removal, the rollback of the
group, and the CXL link down. DEDUCED (log 90). -/
def Dev.lose (d : Dev) (c : Cx) (reason : Nat) : Dev :=
  if d.lostFor ≠ 0 then d
  else
    let d := { d with lostFor := reason, running := [], wanted := [] }
    let d := d.wr F.RAS_STAT_MSTATE 0 2
    let d := d.fault c.tmr { type := 0x17, cls := 4, engine := 13, w20 := reason }
    let d := d.alert 7
    let d := d.propose (.remove (d.rd F.MAP_NODE_NODE))
    let d := if d.inGroup then d.offer c 1 3 (d.rd F.EPC_STAT_LEADER_NODE) else d
    d.wr F.CXP_LSTAT_UP 0 0

/-- Request a module reset (R489); one too many within the hour loses the module (R492). -/
def Dev.requestReset (d : Dev) (c : Cx) (cause : Nat) : Dev :=
  let (d, tooMany) := d.askReset c cause
  if tooMany then d.lose c 4 else d

/-! ### Leaky counters -/

/-- Threshold T of a kind: 0 acts as 16 (R482). -/
def Dev.leakT (d : Dev) (k : Nat) : Nat := let t := d.rd F.RAS_LKCFG_THRESH k; if t = 0 then 16 else t

/-- A counter's value. -/
def Dev.leakOf (d : Dev) (k inst : Nat) : Nat :=
  match d.leaks.find? fun l => l.kind = k && l.inst = inst with
  | some l => l.c
  | none => 0

/-- Set a counter; at 0 it is freed. -/
def Dev.leakSet (d : Dev) (k inst n : Nat) : Dev :=
  let rest := d.leaks.filter fun (l : Leak) => l.kind ≠ k || l.inst ≠ inst
  { d with leaks := if n = 0 then rest else rest ++ [(⟨k, inst, n⟩ : Leak)] }

/-- A DRAM event with no entry takes the entry with the lowest count of its stack's full cache (R484). -/
def Dev.leakRoom (d : Dev) (v : Variant) (k inst : Nat) : Dev :=
  if k ≠ 0 || d.leakOf 0 inst ≠ 0 then d
  else
    let st := d.stackOf v (inst * 256)
    let mine := d.leaks.filter fun l => l.kind = 0 && d.stackOf v (l.inst * 256) = st
    if mine.length < 4096 then d
    else match mine.foldl (fun (b : Option Leak) l => match b with
        | none => some l
        | some x => if l.c < x.c then some l else some x) none with
      | some x => d.leakSet 0 x.inst 0
      | none => d

/-- Retire the frame that holds a slot (R355): the frame is closed, its contents move according to its region, and
PF0 is told. A page in the line cache is written back and its way disabled; a pinned page moves to another frame. After
65,536 frames no more are retired (R356). -/
def Dev.retireFrame (d : Dev) (c : Cx) (gran : Nat) : Dev :=
  let n := d.rd F.TIR_RET_RETIRED
  if 65536 ≤ n then
    if d.rd F.TIR_RET_LIMIT = 1 then d
    else (d.wr F.TIR_RET_LIMIT 0 1).fault c.tmr { type := 0x19, cls := 3, engine := 9, w20 := n }
  else
    let page := gran / 16
    let pinned := d.unitHome (page / 16) = some .pinned
    let gs := d.lcSet c.variant page
    let (frame, d) := d.pick
    let frame := frame % 2 ^ 32
    let d : Dev := if pinned then { d with retired := sadd d.retired (3 * 2 ^ 60 + gs.1 * 2 ^ 40 + frame) }
      else
        let d := match d.lc.find? (·.page = page) with
          | some w => if w.dirty then d.writeBackUnit c.variant (page / 16) else d
          | none => d
        { d with lc := d.lc.filter (·.page ≠ page), retired := d.retired ++ [4 * 2 ^ 60 + gs.1 * 2 ^ 40 + gs.2] }
    let d := d.inc F.TIR_RET_RETIRED 0
    let d := if d.rd F.TIR_RET_RETIRED = 65536 then d.wr F.TIR_RET_LIMIT 0 1 else d
    d.fault c.tmr { type := 0x10, cls := 3, engine := 9,
                    w20 := gs.1 + 2 ^ 5 * (if pinned then 3 else 4) + 2 ^ 8 * frame, w28 := page,
                    w30 := d.rd F.TIR_RET_RETIRED }

/-- Retire a link (R467, step 1): it leaves every eligible list and drains. -/
def Dev.retireLink (d : Dev) (c : Cx) (i : Nat) (lasting : Bool) : Dev :=
  let l := (tget d.lnk i).getD {}
  if l.retiring || d.rd F.LNK_STAT_STATE i = 5 || d.rd F.LNK_STAT_STATE i = 0 then d
  else { d with lnk := tset d.lnk i { l with retiring := true, lasting := lasting, since := c.tmr } }

/-- Fence a directory slice (R498): its atomic line buffer is written back and every entry is removed as an eviction
does; entries whose line is busy go when their tracker is done. DEDUCED (log 35). -/
def Dev.fenceSlice (d : Dev) (c : Cx) (i : Nat) : Dev :=
  let d := d.setBit F.RAS_FMASK_SLICES 0 i true
  let d := { d with abuf := d.abuf.filter fun l => d.sliceOf c.variant (l * 64) ≠ i }
  (d.dir.filter fun (k, e) => k / 131072 = i && !d.busy e.line).foldl (fun d (k, e) =>
    let t : Txn := { line := e.line, collar := e.collar, want := .evict, src := .home, since := c.tmr }
    let (d, t) := d.snoopLines c t 1
    let d := { d with dir := tdel d.dir k }
    if t.snoops.isEmpty && t.group = 0 then d else { d with victims := d.victims ++ [t] }) d

/-- Fence a walker group (R483, R535): its walks in flight are stale and start again at the partner. -/
def Dev.fenceWalkers (d : Dev) (q : Nat) : Dev :=
  let d := d.setBit F.RAS_FMASK_WALKERS 0 q true
  { d with shrTlb := d.shrTlb.filter fun (k, _) => k / 1024 ≠ q,
           walks := mapIf (fun w => w.started && quarter w.collar (w.page * 4096) = q)
             (fun w => { w with started := false }) d.walks }

/-- A record of a fence (R486, type 0x12). -/
def Dev.fenceRecord (d : Dev) (c : Cx) (kind inst : Nat) (lasting : Bool) : Dev :=
  d.fault c.tmr { type := 0x12, cls := 3, engine := 0,
                  w20 := kind + 2 ^ 3 * inst + 2 ^ 10 * (if lasting then 1 else 0),
                  w28 := (tget d.lastStruct (kind * 128 + inst)).getD 0 }

/-- What crossing the threshold of a kind does (R483). -/
def Dev.retireKind (d : Dev) (c : Cx) (k inst struct : Nat) : Dev :=
  let d := d.inc F.RAS_CNT_RETIRED k
  match k with
  | 0 => d.retireFrame c inst
  | 1 => d.retireLink c inst true
  | 2 =>
    let d := { d with lasting := sadd d.lasting inst }
    (d.fenceBay c inst struct).fenceRecord c 0 inst true
  | 3 =>
    let d := { d with lasting := sadd d.lasting (5 * 128 + inst) }
    let d := (d.setBit F.RAS_FMASK_CLUSTERS 0 inst true)
    let d := (List.range 4).foldl (fun d b => d.fenceBay c (4 * inst + b) struct) d
    let d := (d.wr F.PWR_DCTL_STATE (100 + inst) 0).wr F.SHP_CLSTAT_LOADED inst 0
    d.fenceRecord c 5 inst true
  | 4 =>
    let d := { d with lasting := sadd d.lasting (3 * 128 + inst) }
    (d.fenceSlice c inst).fenceRecord c 3 inst true
  | 5 =>
    let d := { d with lasting := sadd d.lasting (4 * 128 + inst) }
    (d.fenceWalkers inst).fenceRecord c 4 inst true
  | _ => d.inc F.FLS_SPACE_BAD (inst / 2 ^ 32)

/-- The fence kind (R486) of a counted kind. DEDUCED (log 35). -/
def fenceKind : Nat → Nat
  | 2 => 0
  | 1 => 1
  | 6 => 2
  | 4 => 3
  | 5 => 4
  | _ => 5

/-- An event of weight e on a counted resource (R482): the counter rises, and at the threshold the resource is retired
and the counter is 0. -/
def Dev.leakEvent (d : Dev) (c : Cx) (k inst e struct : Nat) : Dev :=
  let d := if k = 0 || k = 6 then d
    else { d with lastStruct := tput 0 d.lastStruct (fenceKind k * 128 + inst) struct }
  let d := d.leakRoom c.variant k inst
  let n := d.leakOf k inst + e
  if d.leakT k ≤ n then (d.leakSet k inst 0).retireKind c k inst struct else d.leakSet k inst n

/-- A corrected error: counted, with weight 1. -/
def Dev.corrected (d : Dev) (c : Cx) (k inst struct : Nat) : Dev := (d.inc F.RAS_CNT_CORR k).leakEvent c k inst 1 struct

/-- An uncorrectable error: counted, with weight 4. -/
def Dev.uncorrectable (d : Dev) (c : Cx) (k inst struct : Nat) : Dev :=
  (d.inc F.RAS_CNT_UNCORR k).leakEvent c k inst 4 struct

/-! ### Effects of an error (R480) -/

/-- The record of an uncorrectable error (R486): storage, instance, action, location. -/
def hwWords (struct inst action loc : Nat) : Nat × Nat :=
  (struct + 2 ^ 8 * inst + 2 ^ 20 + 2 ^ 24 * action, loc)

/-- Write a HW_ERROR record of a class. The syndrome is a free value. -/
def Dev.hwRecord (d : Dev) (c : Cx) (cls collar engine struct inst action loc : Nat) (ring : Option Nat := none) : Dev :=
  let (a, b) := hwWords struct inst action loc
  let (syn, d) := d.pick
  d.fault c.tmr { type := 0x03, cls := cls, collar := collar, ring := ring, engine := engine, w20 := a, w28 := b,
                  w30 := syn % 2 ^ 32 }

/-- The latch of a run that meets an uncorrectable error in its bay or on its way. -/
def hwLatch (struct inst engine step loc : Nat) : Latch :=
  let (a, b) := hwWords struct inst 0 loc
  { status := 0x16, type := 0x03, engine := engine, step := step, w20 := a, w28 := b }

/-- The bay's own storages by STRUCT (R487): scratch, vector registers, coalescing table, combining buffer, sketch,
priority queue, codec, and its translation cache. -/
def bayStruct (struct : Nat) : Bool := (1 ≤ struct && struct ≤ 7) || struct = 9

/-- The collar of the kennel that holds a store offset; PF0 when none does. -/
def Dev.collarOf (d : Dev) (off : Nat) : Nat :=
  match d.kennelAt off with
  | some k => d.rd F.KNL_BIND_COLLAR k
  | none => 0

/-- The POISONED record to the function of a line (R480). -/
def Dev.poisonRecord (d : Dev) (c : Cx) (line : Nat) : Dev :=
  d.fault c.tmr { type := 0x02, cls := 2, collar := d.collarOf (line * 64), engine := 8, w20 := line * 64, w28 := 1 }

/-- An error the codes find on a store line while a step serves it: a corrected DRAM error is only counted; an
uncorrectable one poisons the line unless a clean copy of its page lies in flash, which is filled again (R480). DESIGN CHOICE (log 91). -/
def Dev.dramEcc (d : Dev) (c : Cx) (line : Nat) (e : Ecc) : Dev :=
  if !e.uncorr then d.corrected c 0 (line / 4) e.struct
  else
    let page := line / 64
    let refill := (match d.unitHome (page / 16) with
      | some (.flash _ _) => true
      | _ => false) && d.lc.any (fun w => w.page = page && !w.dirty)
    let d := d.uncorrectable c 0 (line / 4) e.struct
    if refill then d.hwRecord c 3 0 9 e.struct (d.stackOf c.variant (line * 64)) 3 (line * 64)
    else
      let d := d.poisonLine c line
      (d.hwRecord c 3 0 9 e.struct (d.stackOf c.variant (line * 64)) 1 (line * 64)).poisonRecord c line

/-- An error in a directory entry, tracker or atomic line buffer while a request is resolved (R480, R481). DESIGN CHOICE (log 91). -/
def Dev.dirEcc (d : Dev) (c : Cx) (line : Nat) (e : Ecc) : Dev :=
  let slice := d.sliceOf c.variant (line * 64)
  if !e.uncorr then d.corrected c 4 slice e.struct
  else
    let d := d.uncorrectable c 4 slice e.struct
    let col := d.collarOf (line * 64)
    if e.struct = 0x0C then
      if e.both then (d.hwRecord c 4 0 8 e.struct slice 6 line).lose c 1 else d
    else if e.struct = 0x0D then
      let d := (d.poisonLine c line).hwRecord c 2 col 8 e.struct slice 1 line
      { d with abuf := d.abuf.filter (· ≠ line) }
    else
      let d := d.hwRecord c 2 col 8 e.struct slice (match d.ent line with
        | some (_, x) => if x.owned then 1 else 3
        | none => 3) line
      match d.ent line with
      | some (k, x) => if x.owned then d.poisonOwned c line else { d with dir := tset d.dir k { x with ovf := true } }
      | none => d

/-- An error found while a home serves a line (the step's `ecc`): DRAM, directory, payload, or metadata. -/
def Dev.homeEcc (d : Dev) (c : Cx) (line : Nat) (ecc : Option Ecc) : Dev :=
  match ecc with
  | none => d
  | some e =>
    if e.struct = 0x11 then d.dramEcc c line e
    else if 0x0B ≤ e.struct && e.struct ≤ 0x0D then d.dirEcc c line e
    else if e.struct = 0x12 then
      if e.uncorr then (d.hwRecord c 4 0 9 e.struct 0 6 line).lose c 2 else d.corrected c 0 (line / 4) e.struct
    else if e.struct = 0x0F then
      if e.uncorr then (d.hwRecord c 4 0 1 e.struct 0 5 0).requestReset c 2 else d
    else if e.uncorr then
      ((d.poisonLine c line).hwRecord c 2 (d.collarOf (line * 64)) 10 e.struct 0 1 (line * 64))
    else d

end Sys2Proof.Machine
end

