-- ==== Sys2Proof/Machine/Tensor.lean ====
section
/-! DEFINITION. Tensors (spec/07): headers and their checks (R219 to R221), the block-sparse format (R223 to R226), element
formats, quantising and dequantising (R239 to R244), shadow copies read in their place (R231, R353), combining segments
(R254, R255), and the frame in which a whole descriptor runs on a step thread. -/
namespace Sys2Proof.Machine

/-! ### Running a whole descriptor -/

/-- Run a whole descriptor on a thread that has just started it: no event when the thread does not run such a descriptor
or a line is busy; a stop completes it under R134, R208; otherwise it ends with the result the body gives, a failed check
(R167) with a completion whatever its end `k`. DESIGN CHOICE (log 14). -/
def Dev.runOpcode (d : Dev) (c : Cx) (bay thr op : Nat) (sel : List Nat → Bool) (env : List Reply) (k : Nat)
    (body : Who → Thread → RM Res) : Dev :=
  match d.thread bay thr with
  | none => d
  | some t =>
    if t.op ≠ op || !sel t.words || t.state = 3 || t.sel || !t.accs.isEmpty then d
    else
      let w : Who := { c := c, bay := bay, thr := thr, collar := t.collar, cls := d.rd F.RNG_CTL_SERVICE t.ring,
                       deadline := t.deadline }
      let (res, r) := (body w t).run { d := d, env := env }
      if r.busy then
        match r.slot with
        | some (a, v) =>
          if t.side.any (fun x => x.2.1 = v) then d
          else d.putThread bay thr { t with side := some (a, v, c.tmr, c.tmr) }
        | none => d
      else match r.stop with
        | some l => r.d.endFault c bay thr { l with step := t.step } false
        | none => r.d.drain c bay thr (if res.status = 0x10 then 0 else k) res

/-- A descriptor that runs past its deadline and has no other fallback completes with LATE (R164, R165). DESIGN CHOICE (log 14). -/
def lateRes (w : Who) (r : Res) : Res :=
  match w.deadline with
  | some dl => if r.status = 0 && dl ≤ w.c.tmr then { r with status := 3 } else r
  | none => r

/-- A failed body check (R167): nothing executed, the offset of the failing word. -/
def formatRes (off : Nat) : Res := { status := 0x10, ra := off }

/-- A count in a field of n bits, held at its maximum. -/
def satTo (n v : Nat) : Nat := min v (2 ^ n - 1)

/-! ### Tensor headers -/

/-- A tensor header (R219); `clean` is whether its reserved fields are 0 and its codes used. -/
structure THdr where
  tva : Nat
  layout : Nat
  fmt : Nat
  valid : Bool
  qmode : Nat
  qblk : Nat
  rowlen : Nat
  blocks : Nat
  rows : Nat
  present : Nat
  data : Nat
  map : Nat
  scale : Nat
  dcap : Nat
  clean : Bool
  deriving DecidableEq, Repr

/-- Bits of an element (R220). -/
def fmtBits : Nat → Nat
  | 1 => 16
  | 2 => 16
  | 3 => 8
  | 4 => 4
  | 7 => 64
  | _ => 32

/-- Decode the eight words of a header. -/
def THdr.ofWords (tva : Nat) (ws : List Nat) : THdr :=
  let w (i : Nat) : Nat := ws.getD i 0
  { tva := tva, layout := bits (w 0) 0 4, fmt := bits (w 0) 4 4, valid := bit (w 0) 8, qmode := bits (w 0) 9 2,
    qblk := bits (w 0) 11 3, rowlen := bits (w 0) 16 17, blocks := bits (w 1) 0 32, rows := bits (w 2) 0 32,
    present := bits (w 2) 32 32, data := w 3, map := w 4, scale := w 5, dcap := bits (w 6) 0 32,
    clean := bits (w 0) 14 2 = 0 && bits (w 0) 33 31 = 0 && bits (w 0) 0 4 ≤ 1 && bits (w 0) 4 4 ≤ 7 && bits (w 0) 9 2 ≤ 2 &&
      bits (w 0) 11 3 ≤ 4 && bits (w 1) 32 32 = 0 && bits (w 6) 32 32 = 0 && w 7 = 0 }

/-- The words of a header. -/
def THdr.words (h : THdr) : List Nat :=
  [ h.layout + 2 ^ 4 * h.fmt + 2 ^ 8 * (if h.valid then 1 else 0) + 2 ^ 9 * h.qmode + 2 ^ 11 * h.qblk + 2 ^ 16 * h.rowlen,
    h.blocks, h.rows + 2 ^ 32 * h.present, h.data, h.map, h.scale, h.dcap, 0 ]

/-- Bytes of a row (R220). -/
def THdr.rowBytes (h : THdr) : Nat := h.rowlen * fmtBits h.fmt / 8

/-- Elements of a quantisation block. -/
def THdr.qlen (h : THdr) : Nat := 32 * 2 ^ h.qblk

/-- Scale records (R239). -/
def THdr.records (h : THdr) : Nat :=
  if h.qmode = 1 then h.rows else if h.qmode = 2 then h.rows * h.rowlen / h.qlen else 0

/-- Items 2, 4 to 8, 10 and 11 of R221, as they apply to a tensor of this shape. -/
def THdr.shapeOk (h : THdr) : Bool :=
  h.clean && 1 ≤ h.rowlen && h.rowlen ≤ 65536 && 1 ≤ h.rows && 1 ≤ h.blocks &&
    (h.blocks - 1) * 256 < h.rows * h.rowBytes && h.rows * h.rowBytes ≤ h.blocks * 256 &&
    !(h.fmt = 4 && h.rowlen % 2 = 1) && (h.qmode = 0 || h.fmt = 3 || h.fmt = 4) &&
    !(h.qmode = 2 && h.rowlen % h.qlen ≠ 0) && !(h.layout = 1 && h.map = 0) &&
    h.data % 256 = 0 && !(h.layout = 1 && h.map % 64 ≠ 0) && !(h.qmode ≠ 0 && (h.scale % 8 ≠ 0 || h.scale = 0))

/-- R221 for a source header. DEDUCED (log 47). -/
def THdr.srcOk (h : THdr) : Bool := h.tva % 64 = 0 && h.valid && h.shapeOk

/-- R221 for a destination header that will hold a tensor of shape `as_`. DEDUCED (log 47). -/
def THdr.dstOk (h as_ : THdr) : Bool :=
  h.tva % 64 = 0 && h.clean &&
    ({ as_ with data := h.data, map := h.map, scale := h.scale, dcap := h.dcap, clean := true, valid := true }).shapeOk

/-- Read a header; the reads of a header carry NODL. -/
def readHdr (w : Who) (tva : Nat) : RM THdr := do return THdr.ofWords tva (elems 8 8 (← readVa w tva 64))

/-- Write a destination header, last of all (R222). -/
def writeHdr (w : Who) (h : THdr) : RM Unit := writeVa w h.tva (wordBytes h.words)

/-! ### Metadata of the block-sparse format (R223, R224) -/

/-- Groups of a tensor. -/
def THdr.groups (h : THdr) : Nat := ceilDiv h.blocks 512

/-- Where the group table and the level-1 words begin. -/
def THdr.gtab (h : THdr) : Nat := h.map + ceilDiv h.groups 512 * 64
def THdr.lvl1 (h : THdr) : Nat := h.gtab + ceilDiv (h.groups * 8) 64 * 64

/-- Bits of a level-1 word below b that are 1. -/
def popBelow (v : Nat) : Nat → Nat
  | 0 => 0
  | b + 1 => popBelow v b + (if bit v b then 1 else 0)

/-- Read a group (R225): the table entry's BASE and the level-1 word; none when its level-0 bit is 0. -/
def readGroup (w : Who) (h : THdr) (g : Nat) : RM (Option (Nat × Nat)) := do
  let b ← readVa w (h.map + g / 8) 1
  if bit (leNat b) (g % 8) then
    let e ← readWord w (h.gtab + 8 * g)
    let l ← readVa w (h.lvl1 + 64 * g) 64
    return some (bits e 0 32, leNat l)
  else return none

/-! ### Shadows (R36, R353) -/

/-- The shadow a descriptor that started at `start` reads: the one whose build completed last before it (R36). -/
def Dev.shadowFor (d : Dev) (collar hdr start : Nat) : Option TensEnt :=
  (d.tens.filter fun (_, e) => e.shadow && e.collar = collar && e.hdr = hdr && e.made ≤ start && e.made ≠ 0 &&
      (match e.ended with
        | none => true
        | some x => start < x)).foldl (fun (b : Option TensEnt) (_, e) => match b with
    | none => some e
    | some x => if x.made < e.made then some e else b) none

/-- The store offset of a TVA of this module; none when it does not translate or lies on another node. -/
def offAt (w : Who) (tva : Nat) : RM (Option Nat) := do
  match ← translate w.c w.bay w.collar tva needRead with
  | .error _ => return none
  | .ok out =>
    let d := (← get).d
    if faNode out ≠ d.rd F.MAP_NODE_NODE then return none
    else return some (if faDirect out then bits out 0 47 else d.windowOff (faWindow out) (bits out 0 36))

/-- The shadow a descriptor that started at `start` reads of the tensor whose header is at a TVA (R36, R344). -/
def shadowOf (w : Who) (tva start : Nat) : RM (Option TensEnt) := do
  match ← offAt w tva with
  | some off => return (← get).d.shadowFor w.collar off start
  | none => return none

/-- Bytes of a shadow's codes, before its scale records. -/
def TensEnt.codeBytes (e : TensEnt) : Nat := e.rows * e.rowlen * fmtBits e.sfmt / 8

/-- A code of a row of elements: two's complement, nibbles low first (R242). -/
def codeAt (fmt : Nat) (b : Bytes) (i : Nat) : Int :=
  if fmt = 4 then toSigned 4 (((b.getD (i / 2) 0).toNat) / (if i % 2 = 0 then 1 else 16))
  else toSigned 8 (b.getD i 0).toNat

/-! ### Element values -/

/-- The format of a floating-point FMT. -/
def fmtOf : Nat → Fmt
  | 1 => bf16
  | 2 => fp16
  | _ => fp32

/-- FMT is FP32, BF16 or FP16. -/
def isFp (f : Nat) : Bool := f ≤ 2

/-- The exact value of a small integer. -/
def FVal.ofInt (q : Int) : FVal := .fin (decide (q < 0)) q.natAbs 0

/-- q × SCALE + OFFSET, rounded once to a format (R243). -/
def dequant (out : Fmt) (q : Int) (rec : Nat) : Nat :=
  out.encode (((FVal.ofInt q).mul (fp32.decode (rec % 2 ^ 32))).add (fp32.decode (rec / 2 ^ 32)))

/-- A stored element as FP32 (R259): `b` the row's bytes, `rec` its scale record. -/
def elemFp32 (fmt : Nat) (b : Bytes) (i rec : Nat) : Nat :=
  if isFp fmt then
    let n := fmtBits fmt / 8
    fp32.encode ((fmtOf fmt).decode (leNat ((b.drop (n * i)).take n)))
  else dequant fp32 (codeAt fmt b i) rec

/-- An FP32 value as stored: the bit pattern itself for FP32 (R259). -/
def rowElem (fmt : Nat) (b : Bytes) (i rec : Nat) : Nat :=
  if fmt = 0 then leNat ((b.drop (4 * i)).take 4) else elemFp32 fmt b i rec

/-- Narrow an FP32 value to a format (R244). -/
def narrow (f : Fmt) (x : Nat) : Nat := f.encode (fp32.decode x)

/-- Pack codes of n bits, low first. -/
def packNibbles : List Nat → Bytes
  | [] => []
  | [a] => [BitVec.ofNat 8 (a % 16)]
  | a :: b :: r => BitVec.ofNat 8 (a % 16 + 16 * (b % 16)) :: packNibbles r

/-- The bytes of elements of a FMT. -/
def packElems (fmt : Nat) (xs : List Nat) : Bytes :=
  if fmt = 4 then packNibbles xs else elemBytes (fmtBits fmt / 8) xs

/-! ### Quantising (R240, R241) -/

/-- A finite number as a ratio to be divided: the numerator and denominator of a / b, as sign, numerator, denominator. -/
def ratioOf (a b : FVal) : Bool × Nat × Nat :=
  match a, b with
  | .fin n m e, .fin n' m' e' =>
    let (x, y) := scale2 m m' (e - e')
    (n != n', x, y)
  | _, _ => (false, 0, 1)

/-- The largest and smallest code, N and M of R240. -/
def codeMax (fmt : Nat) : Nat := if fmt = 4 then 7 else 127
def codeSpan (fmt : Nat) : Nat := if fmt = 4 then 15 else 255

/-- Is a given record bad: SCALE not positive and finite, or OFFSET not finite? -/
def badRecord (rec : Nat) : Bool :=
  match fp32.decode (rec % 2 ^ 32), (fp32.decode (rec / 2 ^ 32)).finite with
  | .fin n m _, true => n || m = 0
  | _, _ => true

/-- Quantise an FP32 value: the code, and whether it counts as saturated (`minmax`: one step past the largest does not). -/
def quantOne (fmt rec x : Nat) (minmax : Bool) : Int × Bool :=
  let hi : Int := codeMax fmt
  match fp32.decode x with
  | .nan => (0, false)
  | .inf n => (if n then -hi - 1 else hi, true)
  | v =>
    let num := v.add (fp32.decode (rec / 2 ^ 32)).neg
    let (neg, a, b) := ratioOf num (fp32.decode (rec % 2 ^ 32))
    let r : Int := sgn neg (rneDiv a b)
    if r < -hi - 1 then (-hi - 1, true)
    else if hi < r then (hi, !(minmax && r = hi + 1))
    else (r, false)

/-- The record of a group from its FP32 elements: ABSMAX (1) or MINMAX (2) (R240). -/
def groupRecord (fmt smode : Nat) (xs : List Nat) : Nat :=
  let vs := (xs.map fp32.decode).filter FVal.finite
  match vs with
  | [] => 0x3F800000
  | v :: r =>
    if smode = 1 then
      let abs (x : FVal) : FVal := match x with
        | .fin _ m e => .fin false m e
        | y => y
      let mx := r.foldl (fun a b => a.max (abs b)) (abs v)
      let s := match mx with
        | .fin _ m e => fp32.encodeRat false m (codeMax fmt) e
        | _ => 0
      if s = 0 then 0x3F800000 else s
    else
      let mx := r.foldl FVal.max v
      let mn := r.foldl FVal.min v
      let s := match mx.add mn.neg with
        | .fin _ m e => fp32.encodeRat false m (codeSpan fmt) e
        | _ => 0
      let o := match mx.add mn with
        | .fin n m e => fp32.encodeRat n m 1 (e - 1)
        | _ => 0
      (if s = 0 then 0x3F800000 else s) + 2 ^ 32 * o

/-- What quantising a group gives: codes, its record, codes saturated, NaN inputs, and whether its record was bad. -/
structure Quanted where
  codes : List Nat
  record : Nat
  sat : Nat
  nans : Nat
  bad : Bool
  deriving DecidableEq, Repr

/-- Quantise a group under smode 0 GIVEN (record `given`), 1 ABSMAX, 2 MINMAX. -/
def quantGroup (fmt smode given : Nat) (xs : List Nat) : Quanted :=
  let rec_ := if smode = 0 then given else groupRecord fmt smode xs
  let nans := (xs.filter fun x => fp32.decode x = .nan).length
  let w := fmtBits fmt
  if smode = 0 && badRecord given then { codes := xs.map fun _ => 0, record := given, sat := 0, nans := nans, bad := true }
  else
    let qs := xs.map fun x => quantOne fmt rec_ x (smode = 2)
    { codes := qs.map fun q => ofSigned w q.1, record := rec_, sat := (qs.filter (·.2)).length, nans := nans, bad := false }

/-- Cut a list into runs of n. -/
def chunks (n : Nat) (xs : List α) : Nat → List (List α)
  | 0 => []
  | k + 1 => if xs.isEmpty then [] else xs.take n :: chunks n (xs.drop n) k

/-! ### A shadow's values -/

/-- The scale record of a group of a shadow. -/
def TensEnt.record (e : TensEnt) (g : Nat) : Nat :=
  leNat ((e.data.drop (ceilDiv e.codeBytes 64 * 64 + 8 * g)).take 8)

/-- Element i of a shadow (counting over the whole tensor) as FP32. -/
def TensEnt.elem (e : TensEnt) (i : Nat) : Nat :=
  let g := if e.qmode = 1 then i / e.rowlen else i / (32 * 2 ^ e.qblk)
  dequant fp32 (codeAt e.sfmt e.data i) (e.record g)

/-- The bytes of logical granule b of a tensor served from its shadow, in the tensor's own FMT (R231); an INT8 source takes
codes quantised with its own records. -/
def shadowGranule (w : Who) (h : THdr) (e : TensEnt) (b : Nat) : RM Bytes := do
  let per := 256 * 8 / fmtBits h.fmt
  let total := h.rows * h.rowlen
  let mut out : List Nat := []
  for k in List.range per do
    let i := b * per + k
    if total ≤ i then out := out ++ [0]
    else if isFp h.fmt then out := out ++ [narrow (fmtOf h.fmt) (e.elem i)]
    else
      let r ← readWord w (h.scale + 8 * (i / h.rowlen))
      out := out ++ [ofSigned (fmtBits h.fmt) (quantOne h.fmt r (e.elem i) false).1]
  return packElems h.fmt out

/-! ### Reading a tensor's blocks -/

/-- What a run has noted about its deadline: granules served from a shadow, and whether flash was waited for. -/
structure Fell where
  shadow : Nat := 0
  waited : Bool := false
  deriving DecidableEq, Repr

/-- Read one 256-byte block of a DENSE tensor, from the shadow when it is SLOW and there is one (R231). -/
def readDense (w : Who) (t : Thread) (h : THdr) (b : Nat) (fell : Fell) : RM (Bytes × Fell) := do
  let tva := h.data + 256 * b
  if ← slowAt w tva then
    match ← shadowOf w h.tva t.start with
    | some e => return (← shadowGranule w h e b, { fell with shadow := fell.shadow + 1 })
    | none => return (← readVa w tva 256, { fell with waited := true })
  else return (← readVa w tva 256, fell)

/-- Status of a run that ends now: DEGRADED when a shadow was used, LATE when it waited for flash or is past its deadline. -/
def Fell.res (f : Fell) (w : Who) (r : Res) : Res :=
  if r.status ≠ 0 then r
  else if 0 < f.shadow then { r with status := 1 }
  else if f.waited then { r with status := 3 }
  else lateRes w r

/-- The blocks of a tensor as they are read in order: each with its number and contents, absent ones passed over unless
`all` (then as zeros). -/
def forBlocks (w : Who) (t : Thread) (h : THdr) (all : Bool) (fell : Fell) (s : σ)
    (f : σ → Nat → Option Bytes → RM σ) : RM (σ × Fell) := do
  let mut s := s
  let mut fell := fell
  if h.layout = 0 then
    for b in List.range h.blocks do
      if !(← stopped) then
        let (x, fl) ← readDense w t h b fell
        fell := fl
        s ← f s b (some x)
  else
    for g in List.range h.groups do
      if !(← stopped) then
        let info ← readGroup w h g
        for b in List.range (min 512 (h.blocks - 512 * g)) do
          match info with
          | some (base, l1) =>
            if bit l1 b then
              let tva := h.data + 256 * (base + popBelow l1 b)
              if ← slowAt w tva then fell := { fell with waited := true }
              let x ← readVa w tva 256
              s ← f s (512 * g + b) (some x)
            else if all then s ← f s (512 * g + b) none
          | none => if all then s ← f s (512 * g + b) none
  return (s, fell)

/-- The logical bytes of a tensor, absent blocks as zeros (R226). -/
def readLogical (w : Who) (t : Thread) (h : THdr) (fell : Fell) : RM (Bytes × Fell) :=
  forBlocks w t h true fell ([] : Bytes) fun s _ x => return s ++ x.getD (List.replicate 256 0)

/-- Copy bytes from one TVA to another. -/
def copyVa (w : Who) (src dst len : Nat) : RM Unit := do writeVa w dst (← readVa w src len)

/-- Write the metadata of a block-sparse tensor whose present blocks are these, ascending (R223 to R225). -/
def writeMeta (w : Who) (h : THdr) (present : List Nat) : RM Unit := do
  let mut base := 0
  let mut l0 := 0
  for g in List.range h.groups do
    let mine := present.filter fun b => b / 512 = g
    writeVa w (h.lvl1 + 64 * g) (leBytes 64 (mine.foldl (fun v b => v + 2 ^ (b % 512)) 0))
    writeVa w (h.gtab + 8 * g) (leBytes 8 (base + 2 ^ 32 * mine.length))
    base := base + mine.length
    if !mine.isEmpty then l0 := l0 + 2 ^ g
  writeVa w h.map (leBytes (ceilDiv h.groups 512 * 64) l0)

/-- Free bytes: contents the spec calls undefined (R236, R264, R310). -/
def freeBytes (n : Nat) : RM Bytes := do
  let mut b : Bytes := []
  for _ in List.range n do
    let (v, d) := (← get).d.pick
    onDev fun _ => d
    b := b ++ [BitVec.ofNat 8 v]
  return b

/-- A destination whose capacity is too small (R236): its blocks within DCAP, its metadata and its scale storage hold
contents that are not defined, and its header says how many blocks are needed with VALID = 0. -/
def overflowTo (w : Who) (h : THdr) (needed : Nat) : RM Unit := do
  writeVa w h.data (← freeBytes (256 * h.dcap))
  writeVa w h.map (← freeBytes (h.lvl1 + 64 * h.groups - h.map))
  if h.qmode ≠ 0 then writeVa w h.scale (← freeBytes (8 * h.records))
  writeHdr w { h with valid := false, present := needed }

/-! ### Combining segments (R254, R255) -/

/-- The AOP an OP and DTYPE apply with (R250); none for a pair not in the table. -/
def reduceAop (op dty : Nat) : Option Nat :=
  let fp := 2 ≤ dty && dty ≤ 4
  match op with
  | 0 => if fp then some 0xB else if dty ≤ 1 then some 0x2 else none
  | 1 => if dty ≤ 1 then some 0x3 else none
  | 2 => if fp then some 0xD else if dty ≤ 1 then some 0x8 else none
  | 3 => if fp then some 0xC else if dty ≤ 1 then some 0x7 else none
  | 4 => if dty ≤ 1 then some 0x4 else none
  | 5 => if dty ≤ 1 then some 0x5 else none
  | 6 => if dty ≤ 1 then some 0x6 else none
  | _ => none

/-- Element bytes of a DTYPE. -/
def dtyBytes (dty : Nat) : Nat := (etyBytes dty).getD 4

/-- Segments a line takes: two for 32 elements. -/
def CombSeg.count (s : CombSeg) : Nat := if 3 ≤ s.dty then 2 else 1

/-- Add a contribution of one element to an accumulator: FP in FP32, integers in the DTYPE (R254). -/
def combElem (op dty : Nat) (touched : Bool) (old x : Nat) : Nat :=
  if !touched && op ≠ 0 then x
  else if 2 ≤ dty then
    match op with
    | 0 => fadd old x
    | 2 => fmaxBits fp32 old x
    | _ => fminBits fp32 old x
  else aopElem ((reduceAop op dty).getD 2) dty old x 0

/-- The element of a flushed segment in its DTYPE: rounded once. -/
def segElem (dty v : Nat) : Nat := if dty = 3 then narrow fp16 v else if dty = 4 then narrow bf16 v else v

/-- Send a segment to its home (R250, R254): one whole-line atomic when every element was touched, or when it is applied
whole, else one atomic for each touched element. -/
def sendSeg (w : Who) (s : CombSeg) : RM Unit := do
  let n := dtyBytes s.dty
  let aop := (reduceAop s.op s.dty).getD 0
  let vals := s.vals.map (segElem s.dty)
  if s.whole || s.mask = 2 ^ (64 / n) - 1 then
    let sp ← spotAddr w s.addr 0 (needAtomic false)
    let _ ← atomicSpot w sp 0 { aop := aop, ety := s.dty, whole := true, fetch := false, at_ := 0, operand := elemBytes n vals }
  else
    for i in List.range (64 / n) do
      if bit s.mask i then
        let sp ← spotAddr w (s.addr + n * i) 0 (needAtomic false)
        let _ ← atomicSpot w sp 0 { aop := aop, ety := s.dty, whole := false, fetch := false, at_ := 0,
                                    operand := leBytes n (vals.getD i 0) }

/-- The record of a flush that met an error (R255): class FUNCTION under the segment's collar; with the run's bay, thread
and step when a run flushes. -/
def flushRecord (c : Cx) (s : CombSeg) (l : Latch) (bay : Option (Nat × Nat × Nat)) (d : Dev) : Dev :=
  if l.type = 0 then d
  else if l.type = 0x01 then
    d.fault c.tmr { type := 0x01, cls := 2, collar := s.collar, bay := bay, engine := 4, node := l.node, w20 := 0,
                    w28 := l.w28 % 2 ^ 16, w30 := 0, w38 := s.addr }
  else d.fault c.tmr { type := l.type, cls := 2, collar := s.collar, bay := bay, engine := l.engine, node := l.node,
                       w20 := l.w20, w28 := l.w28, w30 := l.w30, w38 := l.w38 }

/-- Flush one segment of a bay; what fails is recorded and stops nothing. -/
def flushSeg (w : Who) (bay : Nat) (by_ : Option (Nat × Nat × Nat)) (s : CombSeg) : RM Unit := do
  onDev fun d => { d with comb := tput [] d.comb bay (((tget d.comb bay).getD []).filter (· ≠ s)) }
  match ← attempt (sendSeg { w with collar := s.collar, bay := bay } s) with
  | some l => onDev (flushRecord w.c s l by_)
  | none => return

/-- Flush every segment that passes, in every bay. -/
def flushAll (w : Who) (by_ : Option (Nat × Nat × Nat)) (p : Nat → CombSeg → Bool) : RM Unit := do
  for (bay, l) in (← get).d.comb do
    for s in l do
      if p bay s then flushSeg w bay by_ s

/-- Add a contribution to a line into the bay's segments (R254): a segment of another OP or DTYPE is flushed first, and
with all 8,192 in use the least recently used is. -/
def combAdd (w : Who) (step : Nat) (addr op dty mask : Nat) (whole : Bool) (f : Bool → Nat → Nat → Nat) : RM Unit := do
  let by_ := some (w.bay, w.thr, step)
  for s in ((tget (← get).d.comb w.bay).getD []).filter fun s => s.collar = w.collar && s.addr = addr &&
      (s.op ≠ op || s.dty ≠ dty) do
    flushSeg w w.bay by_ s
  let n := 64 / dtyBytes dty
  let old := ((tget (← get).d.comb w.bay).getD []).find? fun s => s.collar = w.collar && s.addr = addr
  let s0 : CombSeg := old.getD { collar := w.collar, addr := addr, op := op, dty := dty, mask := 0, vals := List.replicate n 0 }
  if old.isNone then
    let l := (tget (← get).d.comb w.bay).getD []
    if 8192 < (l.map (·.count)).sum + s0.count then
      match l.head? with
      | some v => flushSeg w w.bay by_ v
      | none => pure ()
  let s1 := { s0 with
    mask := s0.mask ||| mask, whole := s0.whole || whole,
    vals := (List.range n).map fun i => if bit mask i then f (bit s0.mask i) i (s0.vals.getD i 0) else s0.vals.getD i 0 }
  onDev fun d => { d with comb := tset d.comb w.bay (((tget d.comb w.bay).getD []).filter (· ≠ s0) ++ [s1]) }

/-- The fabric address an atomic access to tva reaches; a fault stops the run. -/
def addrOf (w : Who) (tva : Nat) (n : Need) : RM (Option Nat) := do
  if (← stopped) then return none
  else match ← translate w.c w.bay w.collar tva n with
    | .ok a => return some a
    | .error f =>
      stopXlate w f tva n
      return none

end Sys2Proof.Machine
end

