-- ==== Sys2Proof/Machine/Steps.lean ====
section
/-! DEFINITION. How a step issues its accesses (spec/06, R195 to R208; spec/04, R128 to R134): operands and their spaces,
miss slots and walks, Scent, admission at this module or another, delivery of data and responses, and the condition flags
they set. -/
namespace Sys2Proof.Machine

/-! ### Operands (R195, R196) -/

/-- An operand reference with the INDEX bits its kind uses. -/
def normRef (ref : Nat) : Nat :=
  let k := kindOf ref
  let i := idxOf ref
  k * 256 + (match k with
    | 1 => i % 16
    | 2 => i % 32
    | 3 => i % 4
    | 4 => i % 8
    | 6 => i % 32
    | 7 => i % 32
    | 8 => i % 4
    | _ => 0)

/-- The scalar register an operand's address comes from. -/
def addrRef (ref : Nat) : Nat := if kindOf ref = 6 || kindOf ref = 7 then 512 + idxOf ref % 32 else 0

/-- A byte address in scratch or the pinned window. -/
def Thread.addr (t : Thread) (ref : Nat) : Nat := (tget t.sreg (idxOf ref % 32)).getD 0

/-- Does a SCRATCH or PINNED operand of n bytes stay inside its space (R196)? -/
def Thread.inside (t : Thread) (ref n : Nat) : Bool :=
  match kindOf ref with
  | 6 => decide (t.addr ref + n ≤ 524288)
  | 7 => decide (t.addr ref + n ≤ Config.pinnedBytes)
  | _ => true

/-- n bytes of an operand: a vector register, scratch, the pinned window, or a scalar repeated in every word. -/
def Dev.srcBytes (d : Dev) (tk : Nat) (t : Thread) (s : Step) (ref n : Nat) : Bytes :=
  match kindOf ref with
  | 1 => d.vget tk (idxOf ref % 16) 0 n
  | 6 => d.sget tk (t.addr ref) n
  | 7 => (List.range n).map fun i => (tget d.pwin (tk * 2 ^ 40 + t.addr ref + i)).getD 0
  | _ => takeBytes n ((List.range (n / 4 + 1)).flatMap fun _ => leBytes 4 (t.val s ref))

/-- Write bytes of a destination operand from position `at_`. -/
def Dev.dstBytes (d : Dev) (tk : Nat) (t : Thread) (ref at_ : Nat) (b : Bytes) : Dev × Thread :=
  match kindOf ref with
  | 1 => (d.vput tk (idxOf ref % 16) at_ b, t)
  | 2 => (d, t.setS (idxOf ref) (leNat (b.take 8)))
  | 6 => (d.sput tk (t.addr ref + at_) b, t)
  | 7 => ({ d with pwin := memPut d.pwin (tk * 2 ^ 40 + t.addr ref + at_) b }, t)
  | _ => (d, t)

/-- Does a step read a register with a load pending (R205)? -/
def Thread.blocked (t : Thread) (s : Step) : Bool :=
  let lane := s.unit = 4
  let refs := [s.srca, s.srcb, addrRef s.srca, addrRef s.srcb, addrRef s.dst] ++ (if s.lenEn then [512 + s.lreg] else []) ++
    (if lane then [s.dst] else [])
  refs.any fun r => t.pending (normRef r)

/-! ### Flags of accesses (R200, R207) -/

/-- Which access flags of the steps the flags refer to are not known yet. -/
def Thread.refresh (t : Thread) : Thread :=
  let mine := t.accs.filter fun a => t.grp ≤ a.grp
  let adm := if mine.any fun a => a.waiting then 2 ^ 11 + 2 ^ 12 + 2 ^ 14 else 0
  let dat := if mine.any fun a => a.kind ≠ 1 || t.wait ≠ 0 then 2 ^ 13 + 2 ^ 15 else 0
  { t with unk := adm + dat }

/-- Remove an access. -/
def Thread.dropAcc (t : Thread) (id : Nat) : Thread := { t with accs := t.accs.filter fun (a : Access) => a.id ≠ id }

/-- Change an access. -/
def Thread.updAcc (t : Thread) (id : Nat) (f : Access → Access) : Thread :=
  { t with accs := mapIf (fun a => a.id = id) f t.accs }

/-- Is an access in a class of a WAIT (R204): 1 loads, 2 stores and atomics, 3 both? -/
def Access.inClass (a : Access) (cls : Nat) : Bool :=
  (bit cls 0 && (a.kind = 0 || a.kind = 3 || (a.kind = 2 && a.fetch))) || (bit cls 1 && (a.kind = 1 || a.kind = 2 || a.kind = 4))

/-- An access ends without data or effect, with a flag of its own. A WAIT in progress reports POISON and ACCERR of the
accesses it waits for, and no other flag (R200). -/
def Thread.endAcc (t : Thread) (a : Access) (flag : Nat) : Thread :=
  let mine := if t.wait ≠ 0 then (flag = 13 || flag = 15) && a.inClass t.wait else decide (t.grp ≤ a.grp)
  let t := t.dropAcc a.id
  (if mine then t.setFlag flag true else t).refresh

/-- The rights an access needs. -/
def Access.need (a : Access) : Need :=
  if a.kind = 2 then needAtomic a.fetch else if a.kind = 0 || a.kind = 3 then needRead else needWrite

/-- The latch of a translation fault (R135, R207). -/
def xfLatch (thr : Nat) (a : Access) (f : XF) : Latch :=
  { status := 0x11, type := 0x01, engine := 7, step := a.step, node := f.node, w20 := a.tva,
    w28 := f.cause + 2 ^ 8 * f.level + 2 ^ 11 * a.need.code + 2 ^ 16 * (4 * thr + a.strm % 4), w30 := f.entry, w38 := f.out }

/-- An access meets a translation fault: XFAULT, and the latch (R134, R207). -/
def Thread.xfault (t : Thread) (thr : Nat) (a : Access) (f : XF) : Thread :=
  (t.latchFault (xfLatch thr a f)).endAcc a 12

/-! ### Admission (R133, R200, R352) -/

/-- The transaction of an access at its home. -/
def Access.txn (a : Access) (c : Cx) (bay thr off col knl : Nat) (win : Option Nat) : Txn :=
  let pos := off % 64
  let n := (pos + a.len + 63) / 64
  let want : Want := match a.kind with
    | 1 => .write (a.mask * 2 ^ pos) (takeBytes (64 * n) (List.replicate pos 0 ++ a.data))
    | 4 => .write (a.mask * 2 ^ pos) (takeBytes (64 * n) (List.replicate pos 0 ++ a.data))
    | 2 => match a.atom with
      | some x => .atomic { x with at_ := if x.whole then 0 else pos }
      | none => .engRead
    | _ => .engRead
  { line := off / 64, n := if a.kind = 2 then 1 else n, collar := col, want := want, src := .thread bay thr a.id,
    knl := some knl, win := win, since := c.tmr }

/-- The requests an access makes of another node's home: message type, offset, ATTR, parameter and payload (R459, R460). -/
def Access.requests (a : Access) (addr : Nat) : List (Nat × Nat × Nat × Nat × Bytes) :=
  let pos := addr % 64
  let base := addr % 2 ^ 50 - pos
  let n := (pos + a.len + 63) / 64
  match a.kind with
  | 2 => match a.atom with
    | some x =>
      let par := x.aop + 2 ^ 4 * x.ety + 2 ^ 7 * (if x.fetch then 1 else 0) + 2 ^ 8 * (if x.whole then 1 else 0)
      let slot : Bytes := if x.whole then x.operand
        else if x.aop = 1 then takeBytes 8 x.cmp ++ takeBytes 8 x.operand
        else takeBytes 16 (List.replicate (addr % 16) 0 ++ x.operand)
      [(0x10, addr % 2 ^ 50, 0, par, slot)]
    | none => []
  | 0 => [(0x04, base, n - 1, 0, [])]
  | 3 => [(0x04, base, n - 1, 0, [])]
  | _ =>
    if a.mask = 2 ^ a.len - 1 && pos = 0 && a.len % 64 = 0 then [(0x05, base, n - 1, 0, a.data)]
    else (List.range n).filterMap fun i =>
      let m := bits (a.mask * 2 ^ pos) (64 * i) 64
      if m = 0 then none
      else some (0x06, base + 64 * i, 0, m, takeBytes 64 ((List.replicate pos (0 : Byte) ++ a.data).drop (64 * i)))

/-- Send the requests of an access to another node; those the switch cannot deliver are answered with DENIED (R465). -/
def Dev.sendAcc (d : Dev) (c : Cx) (bay thr cls : Nat) (collar : Nat) (a : Access) (addr : Nat) : Dev :=
  let node := faNode addr
  let me := d.rd F.MAP_NODE_NODE
  match chooseLink (d.eligible node) (addr % 2 ^ 50) node me with
  | none =>
    { d.inc F.MAP_RSTAT_UNROUTABLE 0 (a.requests addr).length with
        answers := d.answers ++ [(⟨bay, thr, a.id, 1, []⟩ : EngAns)] }
  | some l =>
    (a.requests addr).foldl (fun d (mt, off, attr, par, pay) =>
      let tag := d.newTag
      let d := (d.chargePort (12 + l / 4) collar cls (if pay.isEmpty then a.len else pay.length)).emit
        (.msg { mtype := mt, dst := node, src := me, tag := tag, attr := attr, off := off, param := par, payload := pay })
      { d with reqs := d.reqs ++ [({ tag := tag, dst := node, mtype := mt, addr := node * 2 ^ 50 + off, link := some l,
                                     since := c.tmr, purpose := .access bay thr a.id } : Req)] }) d

/-- The port an access to an output fabric address takes first: the home stack's, or the link group's toward its node. -/
def Dev.portOf (d : Dev) (c : Cx) (out : Nat) : Nat :=
  if faNode out = d.rd F.MAP_NODE_NODE then
    d.stackOf c.variant (if faDirect out then bits out 0 47 else d.windowOff (faWindow out) (bits out 0 36))
  else 12 + ((chooseLink (d.eligible (faNode out)) (out % 2 ^ 50) (faNode out) (d.rd F.MAP_NODE_NODE)).getD 0) / 4

/-- Payload bytes of an access at its port. -/
def Access.portBytes (a : Access) : Nat :=
  if a.kind = 0 || a.kind = 3 then 64 * ((a.out % 64 + a.len + 63) / 64) else a.len

/-- An access whose translation is known is admitted: rights, place, SLOW, tokens; then it is issued (R133, R142, R200,
R413). -/
def Dev.admitAcc (d : Dev) (c : Cx) (bay thr : Nat) (id out : Nat) : Dev :=
  match d.thread bay thr with
  | none => d
  | some t =>
    match t.accs.find? (·.id = id) with
    | none => d
    | some a =>
      let cls := d.rd F.RNG_CTL_SERVICE t.ring
      let read := a.kind = 0 || a.kind = 3
      let port := d.portOf c out
      if !d.portReady port t.collar cls then
        (d.inc F.LSHP_OPS_HELD (8 * port + cls)).putThread bay thr (t.updAcc id fun a => { a with out := out, held := true })
      else
        let gen := d.rd F.XLT_GEN_GEN
        let issued := (t.updAcc id fun a => { a with waiting := false, out := out, gen := gen, held := false }).refresh
        match d.locate out t.collar a.need with
        | (d, .here off col k win) =>
          if read && !a.nodl && d.slow c t.deadline (off / 4096) then
            let tx := a.txn c bay thr off col k win
            (d.release tx).putThread bay thr (t.endAcc a 11)
          else
            let d := d.chargePort port t.collar cls (if read then 64 * ((off % 64 + a.len + 63) / 64) else a.len)
            (d.putThread bay thr issued).takeIn c (a.txn c bay thr off col k win)
        | (d, .remote addr) => (d.putThread bay thr issued).sendAcc c bay thr cls t.collar a addr
        | (d, .denied byWin) =>
          d.putThread bay thr (t.xfault thr a { cause := if byWin then 0x0C else 0x0B, out := out })
        | (d, .revoked) => d.putThread bay thr (t.endAcc a 14)

/-- An access meets its translation: its rights are checked and it is admitted (R125). `leaf`: the entry a walk ended at, 0
for a cached translation (R135). -/
def Dev.useTlb (d : Dev) (c : Cx) (bay thr id : Nat) (e : Tlb) (leaf : Nat := 0) : Dev :=
  match d.thread bay thr with
  | none => d
  | some t =>
    match t.accs.find? (·.id = id) with
    | none => d
    | some a =>
      if a.need.within e.r e.w e.a then d.admitAcc c bay thr id (e.outOf a.tva)
      else d.putThread bay thr (t.xfault thr a { cause := 0x02, level := e.level, entry := leaf })

/-- Add a waiter to the walk of a page, or start one waiting (R130). DESIGN CHOICE (log 42). -/
def Dev.joinWalk (d : Dev) (collar page bay strm : Nat) (demand next : Bool) : Dev :=
  if d.walks.any fun w => w.collar = collar && w.page = page then
    { d with walks := mapIf (fun w => w.collar = collar && w.page = page) (fun w =>
        { w with demand := w.demand || demand,
                 waiters := if w.waiters.contains (bay, strm) then w.waiters else w.waiters ++ [(bay, strm)] }) d.walks }
  else
    { d with walks := d.walks ++ [({ collar := collar, page := page, demand := demand, waiters := [(bay, strm)],
                                     next := next } : Walk)] }

/-- Translate an access: a hit admits it; a miss of both caches takes a miss slot of its stream and joins a walk
(R128 to R130). -/
def Dev.issueAcc (d : Dev) (c : Cx) (bay thr id : Nat) : Dev :=
  match d.thread bay thr with
  | none => d
  | some t =>
    match t.accs.find? (·.id = id) with
    | none => d
    | some a =>
      match d.rootFault t.collar a.tva with
      | some f => d.putThread bay thr (t.xfault thr a f)
      | none =>
        let (d, hit) := d.lookupBay bay t.collar a.tva
        match hit with
        | some e => d.useTlb c bay thr id e
        | none =>
          let (d, hit) := d.lookupShr t.collar a.tva
          match hit with
          | some e => (d.installBay bay e).useTlb c bay thr id e
          | none =>
            let page := a.tva / 4096
            let strm := a.strm % 4
            let slots := if t.slots.any (fun x => x.1 = strm && x.2.1 = page) then
                mapIf (fun (x : Nat × Nat × Bool) => x.1 = strm && x.2.1 = page) (fun x => (x.1, x.2.1, true)) t.slots
              else t.slots ++ [(strm, page, true)]
            (d.putThread bay thr ({ t with slots := slots }.refresh)).joinWalk t.collar page bay (4 * thr + strm) true false

/-- Do the pages of an access range fit the stream's 8 miss slots, should every one miss (R129)? -/
def Thread.slotsFor (t : Thread) (strm tva len : Nat) : Bool :=
  let held := t.slots.filter (·.1 = strm % 4)
  let pages := (List.range ((tva + len - 1) / 4096 + 1 - tva / 4096)).map fun i => tva / 4096 + i
  held.length + (pages.filter fun p => !(held.any fun x => x.2.1 = p)).length ≤ 8

/-! ### Scent (R131, R132) -/

/-- Scent requests the tiles ahead of a sequential stream that stands at `tva`. DESIGN CHOICE (log 42). -/
def Dev.scent (d : Dev) (bay thr strm tva : Nat) : Dev :=
  let depth := min 8 (d.rd F.XLT_CFG_SCENT_DEPTH)
  (List.range depth).foldl (fun d i =>
    match d.thread bay thr with
    | none => d
    | some t =>
      match tget t.strms strm with
      | none => d
      | some st =>
        let k := i + 1
        let tile := tva / 2 ^ 21
        if st.indexed || (st.desc && tile < k) then d
        else
          let tl := if st.desc then tile - k else tile + k
          let page := tl * 512
          let held := t.slots.filter (·.1 = strm)
          let inside := decide (st.base < (tl + 1) * 2 ^ 21 && tl * 2 ^ 21 < st.base + st.len)
          if !inside || 8 ≤ held.length || 4 < (held.filter (·.2.2)).length || held.any (fun x => x.2.1 = page) ||
              (d.rootFault t.collar (page * 4096)).isSome ||
              (probe d.bayTlb (fun s => baySet bay t.collar s (page * 4096)) t.collar (page * 4096)).isSome then d
          else match probe d.shrTlb (fun s => shrSet t.collar s (page * 4096)) t.collar (page * 4096) with
            | some (_, e) => if k = 1 then d.installBay bay { e with scent := true } else d
            | none =>
              (d.putThread bay thr { t with slots := t.slots ++ [(strm, page, false)] }).joinWalk t.collar page bay
                (4 * thr + strm) false (k = 1)) d

/-! ### Issuing a step's accesses -/

/-- One access step's description, cut into granules as it issues. -/
structure Issue where
  kind : Nat
  strm : Nat
  tva : Nat
  len : Nat
  fetch : Bool := false
  dst : Nat := 0
  at_ : Nat := 0
  mask : Nat := 0
  data : Bytes := []
  atom : Option AtomOp := none
  nodl : Bool := false
  deriving DecidableEq, Repr

/-- Issue the accesses of a step and let it select its next step when it can (R199, R203). The flags of its unit start
afresh; `flags` are those it reports at issue. -/
def Dev.issue (d : Dev) (c : Cx) (bay thr : Nat) (x : Issue) (flags : List Nat) (scentAt : Option Nat) : Dev :=
  match d.thread bay thr with
  | none => d
  | some t =>
    if !t.slotsFor x.strm x.tva x.len then d.putThread bay thr { t with state := 2 }
    else
      let g := t.nextAcc
      let ps := if x.kind = 2 then [(x.tva, x.len)] else pieces (x.len / 256 + 2) x.tva x.len
      let mk (i : Nat) (p : Nat × Nat) : Access :=
        { id := t.nextAcc + i, grp := g, step := t.step, kind := x.kind, fetch := x.fetch, strm := x.strm, tva := p.1,
          len := p.2, dst := normRef x.dst, at_ := x.at_ + (p.1 - x.tva), mask := bits x.mask (p.1 - x.tva) p.2,
          data := (x.data.drop (p.1 - x.tva)).take p.2, atom := x.atom, nodl := x.nodl }
      let accs := (List.range ps.length).map fun i => mk i (ps.getD i (0, 0))
      let t := { t.clearAccess with accs := t.accs ++ accs, nextAcc := t.nextAcc + ps.length, grp := g, state := 1, wait := 0 }
      let t := flags.foldl (fun t n => t.setFlag n true) t
      let d := d.putThread bay thr (t.refresh)
      let d := accs.foldl (fun d a => d.issueAcc c bay thr a.id) d
      let d := match scentAt with
        | some tva => d.scent bay thr (x.strm % 4) tva
        | none => d
      match d.thread bay thr with
      | some t => (d.putThread bay thr { t with sel := true }).trySelect c bay thr
      | none => d

/-- A step that issues nothing reports its flags and selects its next step. -/
def Dev.noIssue (d : Dev) (c : Cx) (bay thr : Nat) (flags : List Nat) : Dev :=
  match d.thread bay thr with
  | none => d
  | some t =>
    let t := flags.foldl (fun t n => t.setFlag n true) { t.clearAccess with grp := t.nextAcc, wait := 0 }
    (d.putThread bay thr ({ t with sel := true, state := 1 }.refresh)).trySelect c bay thr

/-! ### Data and responses -/

/-- The latch of a run that read poison (R178). -/
def poisonLatch (a : Access) (addr : Nat) (remote : Bool) : Latch :=
  { status := 0x14, type := 0x02, engine := 8, step := a.step, node := if remote then some (faNode addr) else none,
    w20 := addr, w28 := 1 + (if remote then 2 ^ 32 else 0) }

/-- Deliver the data of an access to its destination. -/
def Dev.deliver (d : Dev) (bay thr : Nat) (t : Thread) (a : Access) (b : Bytes) : Dev × Thread :=
  let tk := thrKey bay thr
  match kindOf a.dst with
  | 1 => (d.vput tk (idxOf a.dst) a.at_ b, t)
  | 2 => (d, t.setS (idxOf a.dst) (leNat (b.take 8)))
  | 6 => (d.sput tk a.at_ b, t)
  | 7 => ({ d with pwin := memPut d.pwin (tk * 2 ^ 40 + a.at_) b }, t)
  | _ => (d, t)

/-- After an access has ended, the thread selects its next step if it waited for it, or resolves its end. -/
def Dev.afterAcc (d : Dev) (c : Cx) (bay thr : Nat) : Dev :=
  match d.thread bay thr with
  | none => d
  | some t => if t.state = 3 then d.resolveDone c bay thr else d.trySelect c bay thr

/-- The data or response of an access arrives (R200, R204, R207): status as R458, 5 for a timeout, whose latch is given. -/
def Dev.respond (d : Dev) (c : Cx) (bay thr id st : Nat) (data : Bytes) (late : Option Latch) : Dev :=
  match d.thread bay thr with
  | none => d
  | some t =>
    match t.accs.find? (·.id = id) with
    | none => d
    | some a =>
      let addr := a.out
      let remote := faNode addr ≠ d.rd F.MAP_NODE_NODE
      let off := if faDirect addr then bits addr 0 47 else d.windowOff (faWindow addr) (bits addr 0 36)
      let (d, t) : Dev × Thread := match st with
        | 0 =>
          let b := if a.kind = 0 || a.kind = 3 then takeBytes a.len (data.drop (addr % 64)) else data
          let (d, t) := if t.discard || data.isEmpty || a.dst = 0 then (d, t) else d.deliver bay thr t a b
          (d, (t.dropAcc id).refresh)
        | 1 => (d, t.xfault thr a { cause := 0x0C, out := addr, node := if remote then some (faNode addr) else none })
        | 2 => (d, t.endAcc a 14)
        | 3 => (d, (t.latchFault (poisonLatch a (if remote then addr / 64 * 64 else off / 64 * 64) remote)).endAcc a 13)
        | 4 => (d, (t.latchFault { status := 0x10, type := 0, engine := 10, step := a.step }).endAcc a 15)
        | _ => (d, (t.latchFault (late.getD { status := 0x18, type := 0, engine := 10, step := a.step })).endAcc a 15)
      (d.putThread bay thr t).afterAcc c bay thr

/-- The home's answer to an access of a thread is taken. -/
def Dev.takeAnswer (d : Dev) (bay thr id : Nat) : Option (Dev × EngAns) :=
  match d.answers.find? fun a => a.bay = bay && a.thr = thr && a.acc = id with
  | some a => some ({ d with answers := d.answers.filter (· ≠ a) }, a)
  | none => none

/-- An answer to a request of a thread's access arrives from another node: kept until the access's last request is
answered. -/
def Dev.reqAnswered (d : Dev) (r : Req) (st : Nat) (data : Bytes) : Dev :=
  let d := { d with reqs := d.reqs.filter (· ≠ r) }
  match r.purpose with
  | .posted | .delta | .rebuild => d
  | .access b t id =>
    let more := d.reqs.any fun q => q.purpose = r.purpose
    match d.thread b t with
    | none => d
    | some th =>
      match th.accs.find? (·.id = id) with
      | none => d
      | some a =>
        let st := max a.st st
        if more then d.putThread b t (th.updAcc id fun a => { a with st := st })
        else { d with answers := d.answers ++ [(⟨b, t, id, st, data⟩ : EngAns)] }

/-! ### Errors while a step runs (R216, R480, R483) -/

/-- An error in a bay's storage or in its step-table memory while a thread steps: the block, and whether the run ends. DESIGN CHOICE (log 91). -/
def Dev.stepEcc (d : Dev) (c : Cx) (bay thr : Nat) (t : Thread) (e : Ecc) : Dev × Bool :=
  let bayLatch : Latch := hwLatch e.struct bay 1 t.step 0
  if e.struct = 0x08 then
    if !e.uncorr then (d.corrected c 3 (bay / 4) 8, false)
    else
      let d := d.endFault c bay thr (hwLatch 8 bay 0 t.step t.step) false
      (d.uncorrectable c 3 (bay / 4) 8, true)
  else if e.struct = 0x09 || e.struct = 0x0A then
    let (k, i) := if e.struct = 0x09 then (2, bay) else (5, quarter t.collar 0)
    (if e.uncorr then d.uncorrectable c k i e.struct else d.corrected c k i e.struct, false)
  else if !bayStruct e.struct then (d, false)
  else if !e.uncorr then (d.corrected c 2 bay e.struct, false)
  else if e.struct = 5 then
    let d := { d with sketch := d.sketch.filter fun (k, _) => k / 256 ≠ bay }
    ((d.hwRecord c 3 0 5 5 bay 3 0).uncorrectable c 2 bay 5, false)
  else if e.struct = 4 then
    match ((tget d.comb bay).getD []).head? with
    | none => (d.uncorrectable c 2 bay 4, false)
    | some s =>
      let d := { d with comb := tput [] d.comb bay (((tget d.comb bay).getD []).filter (· ≠ s)) }
      let off := if faDirect s.addr then bits s.addr 0 47 else d.windowOff (faWindow s.addr) (bits s.addr 0 36)
      let d := if faNode s.addr = d.rd F.MAP_NODE_NODE then d.poisonLine c (off / 64) else d
      ((d.hwRecord c 2 s.collar 4 4 bay 1 s.addr).uncorrectable c 2 bay 4, false)
  else
    let d := d.endFault c bay thr bayLatch false
    (d.uncorrectable c 2 bay e.struct, true)

/-! ### The frame of a step row -/

/-- Run one step of a thread: its current step word must be the unit and operation the row names; a step whose source
register awaits a load, or that another step's selection precedes, stalls (R192, R205). -/
def Dev.stepRow (d : Dev) (c : Cx) (bay thr unit op : Nat) (ecc : Option Ecc) (body : Dev → Thread → Step → Dev) : Dev :=
  match d.thread bay thr with
  | none => d
  | some t =>
    let s := d.stepAt t.step
    if t.state = 3 || t.sel || s.unit ≠ unit || s.op ≠ op then d
    else
      let (d, ended) := match ecc with
        | some e => d.stepEcc c bay thr t e
        | none => (d, false)
      if ended then d
      else match d.thread bay thr with
        | none => d
        | some t =>
          if t.state = 3 then d
          else if t.blocked s then d.putThread bay thr { t with state := 2 }
          else body d t s

/-- A step ends at once: its thread selects the next step. -/
def Dev.stepEnd (d : Dev) (c : Cx) (bay thr : Nat) (t : Thread) : Dev :=
  (d.putThread bay thr { t with sel := true, state := 1 }).trySelect c bay thr

/-- R196: an operand leaves its space; nothing is issued and the latch takes HW_ERROR with ENGINE vector lanes. -/
def Dev.outside (d : Dev) (c : Cx) (bay thr : Nat) (t : Thread) (ref : Nat) : Dev :=
  (d.putThread bay thr (t.latchFault (hwLatch 1 bay 1 t.step (t.addr ref)))).noIssue c bay thr []

end Sys2Proof.Machine
end

