-- ==== Sys2Proof/Machine/Ports.lean ====
section
/-! DEFINITION. Requests at the ports of this module (spec/12, R408 to R414): those from outside pass their ports in turn,
and whatever is held for tokens is granted by deficit round robin when tokens come. -/
namespace Sys2Proof.Machine

/-- A request passes its ports: the first that lacks tokens, or has earlier work of the collar and class, holds it; past
the last it reaches its home. -/
def Dev.passPorts (d : Dev) (c : Cx) (t : Txn) (cls len : Nat) : List Nat → Dev
  | [] => d.takeIn c t
  | p :: r =>
    let before := d.portHeld.any fun w => w.ports.head? = some p && w.cls = cls && w.txn.collar = t.collar
    if !before && d.portReady p t.collar cls then Dev.passPorts (d.chargePort p t.collar cls len) c t cls len r
    else { (if t.collar > 512 then d else d.inc F.LSHP_OPS_HELD (8 * p + cls)) with
             portHeld := d.portHeld ++ [({ txn := t, cls := cls, len := len, ports := p :: r } : Waiting)] }

/-- Something held at a port: a request from outside, or an access of a step thread. -/
inductive HeldBy
  | request (w : Waiting)
  | access (bay thr id out : Nat)
  deriving DecidableEq, Repr

/-- An item held at a port, with its class, collar and cost in tokens. -/
structure HeldItem where
  port : Nat
  cls : Nat
  collar : Nat
  cost : Nat
  by_ : HeldBy
  deriving DecidableEq, Repr

/-- What is held at a port, in arrival order. -/
def Dev.heldAt (d : Dev) (c : Cx) (p : Nat) : List HeldItem :=
  (d.portHeld.filterMap fun w =>
    if w.ports.head? = some p then some (⟨p, w.cls, w.txn.collar, ceilDiv w.len 64, .request w⟩ : HeldItem) else none) ++
  d.threads.flatMap fun (k, t) =>
    (t.accs.filter fun a => a.held && d.portOf c a.out = p).map fun a =>
      (⟨p, d.rd F.RNG_CTL_SERVICE t.ring, t.collar, ceilDiv a.portBytes 64, .access (k / 8) (k % 8) a.id a.out⟩ : HeldItem)

/-- The cost of the first item of a list. -/
def headCost (l : List HeldItem) : Nat := match l with
  | x :: _ => x.cost
  | [] => 0

/-- One grant at a port (R413): a class, a subscriber of it whose leashes hold tokens, and its first item. -/
def Dev.grantPort (d : Dev) (c : Cx) (p : Nat) : Dev × Option HeldItem :=
  let items := (d.heldAt c p).filter fun x =>
    x.collar > 512 || (d.holds lshFn x.collar && d.holds lshService (8 * x.collar + x.cls))
  match items.find? fun x => x.collar > 512 with
  | some x => (d, some x)
  | none =>
    let ofCls (i : Nat) : List HeldItem := items.filter fun x => 8 * p + x.cls = i
    let all := (List.range 8).map fun k => 8 * p + k
    match d.grantNext lshPort (deficitKey 2) (8192 + p) (fun i => headCost (ofCls i)) all
        (all.filter fun i => !(ofCls i).isEmpty) with
    | (d, none) => (d, none)
    | (d, some i) =>
      let ofFn (f : Nat) : List HeldItem := (ofCls i).filter fun x => x.collar = f
      match d.grantNext lshFn (fun f => deficitKey 3 (i * 1024 + f)) (16384 + i) (fun f => headCost (ofFn f)) (List.range 513)
          ((List.range 513).filter fun f => !(ofFn f).isEmpty) with
      | (d, none) => (d, none)
      | (d, some f) => (d, (ofFn f).head?)

/-- Grants at a port until none is left to make. -/
def Dev.grantAt (d : Dev) (c : Cx) (p : Nat) : Nat → Dev
  | 0 => d
  | k + 1 =>
    match d.grantPort c p with
    | (d, none) => d
    | (d, some x) =>
      let d := match x.by_ with
        | .request w =>
          ({ d with portHeld := d.portHeld.filter (· ≠ w) }.chargePort p w.txn.collar w.cls w.len).passPorts c w.txn w.cls w.len
            w.ports.tail
        | .access b t id out => (d.admitAcc c b t id out).afterAcc c b t
      Dev.grantAt d c p k

/-- Everything held at every port that tokens now allow (R409, R413). -/
def Dev.grantHeld (d : Dev) (c : Cx) : Dev :=
  (List.range 38).foldl (fun d p => d.grantAt c p (d.heldAt c p).length) d

end Sys2Proof.Machine
end

