-- ==== Sys2Proof/Machine/Fabric.lean ====
section
/-! DEFINITION. Fabric requests at this home (spec/03, spec/14 R458 to R460), the responses to this module's own, the answers
to its snoops, the timeouts of both (R84, R88, R485), and what becomes of a failed agent (R114). -/
namespace Sys2Proof.Machine

/-! ### Entry of a request -/

/-- A CMP with a status to the sender of a message. -/
def Dev.cmpTo (d : Dev) (h : Hdr) (status : Nat) : Dev :=
  d.emit (.msg { mtype := 0x30, dst := h.src, src := d.rd F.MAP_NODE_NODE, tag := h.tag, status := status, off := h.off })

/-- Does the map in force list a node as a module of this region (R47)? -/
def Dev.isModule (d : Dev) (n : Nat) : Bool := d.map.modules.any (·.node = n)

/-- What resolving a fabric offset gives: a store offset, collar and window, or a refusal (R45 to R47, R138). -/
def Dev.resolve (d : Dev) (h : Hdr) (n : Need) (wb : Bool) : Dev × Option (Nat × Nat × Option Nat) :=
  if bit h.off 49 then
    (d, if d.isModule h.src && bits h.off 47 2 = 0 then some (bits h.off 0 47, h.collar, none) else none)
  else
    let w := bits h.off 36 13
    let at_ := bits h.off 0 36
    let col := d.rd F.XLT_WCTL_COLLAR w
    let src := if d.rd F.XLT_WCTL_SRCMODE w = 0 then (d.groupNodes col).contains h.src else d.rd F.XLT_WCTL_SRCNODE w = h.src
    if d.windowOk w at_ n src wb then (d, some (d.windowOff w at_, col, some w)) else (d.inc F.XLT_WREJ_COUNT w, none)

/-- A request of the fabric that passed its checks: store offset, collar, kennel and window. -/
structure Entered where
  off : Nat
  collar : Nat
  knl : Nat
  win : Option Nat
  deriving DecidableEq, Repr

/-- The checks at the link ingress (R47, R54, R91, R114, R138, R494, R520): a request that fails one is answered and ends. `keeps`:
it would leave a copy at the requester. -/
def Dev.ingress (d : Dev) (h : Hdr) (n : Need) (wb keeps : Bool) : Dev × Option Entered :=
  if d.lostFor ≠ 0 || d.failed.contains (.node h.src) then (d.cmpTo h 1, none)
  else match d.resolve h n wb with
    | (d, none) => (d.cmpTo h 1, none)
    | (d, some (off, col, win)) =>
      if (keeps && !(d.groupNodes col).contains h.src) || d.rd F.SEC_TDI_STATE col = 3 then (d.cmpTo h 1, none)
      else
        let r := d.kennelCheck off col
        let d := d.countReject r
        match r with
        | .revoked _ => (d.cmpTo h 2, none)
        | .denied _ => (d.cmpTo h 1, none)
        | .ok k =>
          let d := d.bump F.KNL_INFLT_COUNT k
          ((match win with
            | some w => d.bump F.XLT_WINFLT_COUNT w
            | none => d), some ⟨off, col, k, win⟩)

/-- The transaction of an entered request. -/
def Entered.txn (e : Entered) (c : Cx) (h : Hdr) (n : Nat) (want : Want) : Txn :=
  { line := e.off / 64, n := n, collar := e.collar, want := want, src := .fabric h.src h.tag h.off h.link, knl := some e.knl,
    win := e.win, since := c.tmr }

/-- Lines of a request that stay within its granule. -/
def linesIn (off n : Nat) : Nat := max 1 (min n (4 - off / 64 % 4))

/-- A request passes its link group's port and its home stack's, and reaches the home (R408, R410). DEDUCED (log 31). -/
def Dev.toHome (d : Dev) (c : Cx) (h : Hdr) (e : Entered) (t : Txn) (len : Nat) : Dev :=
  d.passPorts c t (d.rd F.FN_CTL_XCLASS e.collar) len [12 + h.link / 4, d.stackOf c.variant e.off]

/-- A read request of the fabric. -/
def Dev.fabRead (d : Dev) (c : Cx) (h : Hdr) (n : Nat) (need : Need) (want : Want) (keeps : Bool) (ecc : Option Ecc) : Dev :=
  match d.ingress h need false keeps with
  | (d, none) => d
  | (d, some e) =>
    let n := linesIn e.off n
    (d.homeEcc c (e.off / 64) ecc).toHome c h e (e.txn c h n want) (64 * n)

/-- Was a write's payload lost on the mesh, a bridge or a link switch (R480)? DEDUCED (log 34). -/
def payloadLost : Option Ecc → Bool
  | some e => e.uncorr && (e.struct = 0x10 || e.struct = 0x15 || e.struct = 0x16)
  | none => false

/-- The record of a lost payload (R480). DEDUCED (log 34). -/
def Dev.lostPayload (d : Dev) (c : Cx) (collar off : Nat) : Option Ecc → Dev
  | some e => d.hwRecord c 2 collar 10 e.struct 0 1 off
  | none => d

/-- A write request of the fabric: mask and bytes over n lines. -/
def Dev.fabWrite (d : Dev) (c : Cx) (h : Hdr) (n mask : Nat) (data : Bytes) (ecc : Option Ecc) : Dev :=
  match d.ingress h needWrite false false with
  | (d, none) => d
  | (d, some e) =>
    let n := linesIn e.off n
    if payloadLost ecc then (d.lostPayload c e.collar e.off ecc).toHome c h e (e.txn c h n .poison) (64 * n)
    else (d.homeEcc c (e.off / 64) ecc).toHome c h e (e.txn c h n (.write (mask % 2 ^ (64 * n)) (takeBytes (64 * n) data))) (64 * n)

/-! ### The requests -/

/-- RD_SHARED (R79, R91). DEDUCED (log 38). -/
def execRdShared (h : Hdr) (ecc : Option Ecc) (s : State) : Host.Outcome State Fault Refusal :=
  s.run fun c d => d.fabRead c h 1 needRead .shared true ecc

/-- RD_OWN: needs R and W of a window (R138). -/
def execRdOwn (h : Hdr) (ecc : Option Ecc) (s : State) : Host.Outcome State Fault Refusal :=
  s.run fun c d => d.fabRead c h 1 ⟨true, true, false⟩ .own true ecc

/-- UPGRADE (R83). -/
def execUpgrade (h : Hdr) (ecc : Option Ecc) (s : State) : Host.Outcome State Fault Refusal :=
  s.run fun c d => d.fabRead c h 1 ⟨true, true, false⟩ .upgrade true ecc

/-- RD_ONCE of 1 to 4 lines (R99, R459). -/
def execRdOnce (h : Hdr) (lines : Nat) (ecc : Option Ecc) (s : State) : Host.Outcome State Fault Refusal :=
  s.run fun c d => d.fabRead c h lines needRead .once false ecc

/-- WR_LINE of 1 to 4 lines (R101, R459). -/
def execWrLine (h : Hdr) (lines : Nat) (data : Bytes) (ecc : Option Ecc) (s : State) : Host.Outcome State Fault Refusal :=
  s.run fun c d => d.fabWrite c h lines (2 ^ (64 * lines) - 1) data ecc

/-- WR_MASK: the bytes a 64-bit mask selects (R101). -/
def execWrMask (h : Hdr) (mask : Nat) (data : Bytes) (ecc : Option Ecc) (s : State) : Host.Outcome State Fault Refusal :=
  s.run fun c d => d.fabWrite c h 1 (mask % 2 ^ 64) data ecc

/-- WB: written at once when the directory names the sender as owner, and refused with DENIED otherwise (R78, R583). During
a rollback modified data is discarded (R36). -/
def execWb (h : Hdr) (data : Bytes) (ecc : Option Ecc) (s : State) : Host.Outcome State Fault Refusal :=
  s.run fun c d =>
    let line? := (d.resolve h ⟨false, false, false⟩ true).2
    let owner := match line? with
      | some (off, _, _) => d.owns (.node h.src) (off / 64)
      | none => false
    match d.ingress h ⟨false, false, false⟩ owner false with
    | (d, none) => d
    | (d, some e) =>
      let t := e.txn c h 1 (.write (2 ^ 64 - 1) data)
      let line := e.off / 64
      if !owner then d.answer t 1 0 []
      else if d.hold = 2 then (d.freeEnt line).answer t 0 0 []
      else if payloadLost ecc then
        (((d.lostPayload c e.collar e.off ecc).poisonLine c line).freeEnt line).answer t 3 0 []
      else
        let (d, ok) := d.writeBack c line data
        if ok then d.answer t 0 0 [] else d.release t

/-- The operand and compare value of an atomic in its operand slots (R460). UNVERIFIED (log 33). -/
def atomSlot (off aop n : Nat) (whole : Bool) (slot : Bytes) : Bytes × Bytes :=
  if whole then (takeBytes 64 slot, [])
  else if aop = 1 then (takeBytes n (slot.drop 8), takeBytes n slot)
  else (takeBytes n (slot.drop (off % 16)), [])

/-- ATOMIC: a malformed one is refused with FORMAT (R94). UNVERIFIED (log 33). -/
def execAtomic (h : Hdr) (aop ety : Nat) (fetch whole : Bool) (slot : Bytes) (ecc : Option Ecc) (s : State) :
    Host.Outcome State Fault Refusal :=
  s.run fun c d => match d.ingress h (needAtomic fetch) false false with
    | (d, none) => d
    | (d, some e) =>
      let n := if whole then 64 else (etyBytes ety).getD 4
      if !aopValid aop ety whole || h.off % n ≠ 0 then d.answer (e.txn c h 1 .once) 4 0 []
      else if payloadLost ecc then (d.lostPayload c e.collar e.off ecc).toHome c h e (e.txn c h 1 .poison) n
      else
        let (x, cmp) := atomSlot h.off aop n whole slot
        let a : AtomOp := { aop := aop, ety := ety, whole := whole, fetch := fetch, at_ := e.off % 64, operand := x, cmp := cmp }
        (d.homeEcc c (e.off / 64) ecc).toHome c h e (e.txn c h 1 (.atomic a)) n

/-- ZERO_MARK: a whole-line atomic with operand 0 on each line of a 256-byte block (R252), answered with the last. The
message as R459 lays it out carries no operation; here it comes with the command. UNVERIFIED (log 33). -/
def execZeroMark (h : Hdr) (aop ety : Nat) (s : State) : Host.Outcome State Fault Refusal :=
  s.run fun c d => match d.ingress h (needAtomic false) false false with
    | (d, none) => d
    | (d, some e) =>
      let a : AtomOp := { aop := aop, ety := ety, whole := true, fetch := false, at_ := 0, operand := List.replicate 64 0 }
      if !aopValid aop ety true || h.off % 256 ≠ 0 then d.answer (e.txn c h 1 .once) 4 0 []
      else
        let t := e.txn c h 1 (.atomic a)
        let part (i : Nat) : Txn := { t with line := t.line + i, src := .home, knl := none, win := none }
        let d := [0, 1, 2].foldl (fun d i => d.toHome c h e (part i) 0) d
        d.toHome c h e { t with line := t.line + 3 } 0

/-- MC_BLOCK: 256 bytes written at this member through DEST (R247). -/
def execMcBlock (h : Hdr) (data : Bytes) (ecc : Option Ecc) (s : State) : Host.Outcome State Fault Refusal :=
  s.run fun c d => d.fabWrite c h 4 (2 ^ 256 - 1) data ecc

/-- MC_ZERO: 256 zero bytes (R247). -/
def execMcZero (h : Hdr) (s : State) : Host.Outcome State Fault Refusal :=
  s.run fun c d => d.fabWrite c h 4 (2 ^ 256 - 1) (List.replicate 256 0) none

/-! ### Responses to this module's requests -/

/-- The outstanding request a response answers. -/
def Dev.reqOf (d : Dev) (src tag : Nat) : Option Req := d.reqs.find? fun r => r.tag = tag && r.dst = src

/-- CMP: the request ends with its status; a response nothing waits for is discarded. -/
def execCmp (h : Hdr) (status : Nat) (s : State) : Host.Outcome State Fault Refusal :=
  s.run fun _ d => match d.reqOf h.src h.tag with
    | some r => d.reqAnswered r status []
    | none => d

/-- DATA: the data of an outstanding read. -/
def execData (h : Hdr) (status : Nat) (data : Bytes) (s : State) : Host.Outcome State Fault Refusal :=
  s.run fun _ d => match d.reqOf h.src h.tag with
    | some r => d.reqAnswered r status data
    | none => d

/-! ### Answers to snoops -/

/-- The line of a snoop's answer: its offset is the direct form the snoop carried. -/
def ansLine (h : Hdr) : Nat := bits h.off 0 47 / 64

/-- ACK. -/
def execAck (h : Hdr) (s : State) : Host.Outcome State Fault Refusal :=
  s.run fun c d => d.snoopAnswer c (.node h.src) (ansLine h) .ack

/-- MISS (R81). -/
def execMiss (h : Hdr) (s : State) : Host.Outcome State Fault Refusal :=
  s.run fun c d => d.snoopAnswer c (.node h.src) (ansLine h) .miss

/-- FWD_DONE: the owner sent the data itself and had none for the home (R79). -/
def execFwdDone (h : Hdr) (s : State) : Host.Outcome State Fault Refusal :=
  s.run fun c d => d.snoopAnswer c (.node h.src) (ansLine h) .ack

/-- FWD_MISS: the home serves the requester (R81). -/
def execFwdMiss (h : Hdr) (s : State) : Host.Outcome State Fault Refusal :=
  s.run fun c d => d.snoopAnswer c (.node h.src) (ansLine h) .miss

/-- SNP_DATA: the owner's dirty data (R79). -/
def execSnpData (h : Hdr) (data : Bytes) (s : State) : Host.Outcome State Fault Refusal :=
  s.run fun c d => d.snoopAnswer c (.node h.src) (ansLine h) (.dirty data)

/-- TRACKER_ADMIT: the earliest request that waits for a line is admitted once the line is free (R78). -/
def execTrackerAdmit (line : Nat) (s : State) : Host.Outcome State Fault Refusal :=
  s.run fun c d => d.pump c line

/-! ### Failed agents and timeouts -/

/-- An agent as a sharer pointer (R76). -/
def Agent.ptr : Agent → Nat
  | .node n => 2 ^ 15 + n
  | .spid i => 2 ^ 15 + 2 ^ 14 + i

/-- Snoops outstanding toward an agent, by line. -/
def Dev.waitingOn (d : Dev) (a : Agent) : List Nat :=
  (d.trackers ++ d.victims).flatMap fun t => (t.snoops.filter fun s => s.agent = a).map (·.line)

/-- Declare an agent failed (R114): no new copies; lines it owned are poisoned and its pointers cleared; transactions
waiting on it go on; AGENT_FAILED to PF0, and POISONED to each function with a line poisoned. DEDUCED (log 39). -/
def Dev.failAgent (d : Dev) (c : Cx) (a : Agent) : Dev :=
  let d := { d with failed := if d.failed.contains a then d.failed else d.failed ++ [a] }
  let owned := (d.dir.filter fun (_, e) => e.owned && e.p0 = some a).map fun (_, e) => (e.line, e.collar)
  -- a line whose owner is being asked for it is poisoned with that snoop's answer, once
  let asked (l : Nat) : Bool := d.hold ≠ 2 && (d.trackers ++ d.victims).any fun t => t.snoops.any fun s => s.agent = a && s.line = l && s.kind ≠ 0
  let d := owned.foldl (fun d (l, _) => if asked l then d else d.poisonOwned c l) d
  let d := (d.dir.filter fun (_, e) => e.ptrs.contains a).foldl (fun d (k, e) => d.putEnt k (e.drop a)) d
  let d := (d.waitingOn a).foldl (fun d l => d.snoopAnswer c a l .silent) d
  let d := d.fault c.tmr { type := 0x0D, cls := 3, engine := 8, w20 := a.ptr, w28 := owned.length }
  let d := match a with
    | .spid _ => d.alert 4
    | .node _ => d
  ((owned.map fun (_, col) => col).eraseDups).foldl (fun d col =>
    d.fault c.tmr { type := 0x02, cls := 2, collar := col, engine := 8, w20 := 0,
                    w28 := (owned.filter fun (_, x) => x = col).length }) d

/-- The snoop of a line toward an agent that has waited the fabric request timeout (R84). DEDUCED (log 30). -/
def Dev.lateSnoop (d : Dev) (c : Cx) (a : Agent) (line : Nat) : Option Txn :=
  (d.trackers ++ d.victims).find? fun t =>
    (t.snoops.any (fun s => s.agent = a && s.line = line) || (t.group ≠ 0 && t.covers line)) &&
      decide (t.since + d.fabricMs * 100000 ≤ c.tmr)

/-- A snoop unanswered in time counts as answered (R84): SNOOP_TIMEOUT to PF0 and to the function of the line, and the
keepers are asked to remove the node. -/
def execSnoopTimeout (node line : Nat) (s : State) : Host.Outcome State Fault Refusal :=
  s.run fun c d => match d.lateSnoop c (.node node) line with
    | none => d
    | some t =>
      let d := d.snoopAnswer c (.node node) line .silent
      let r : FRec := { type := 0x06, cls := 2, collar := t.collar, engine := 8, node := some node, w20 := line * 64 }
      ((d.fault c.tmr { r with collar := if t.collar > 512 then d.collarOf (line * 64) else t.collar }).fault c.tmr
        { r with cls := 3 }).propose (.remove node)

/-- A request of this module unanswered within RAS_TMO.FABRIC ends with TIMEOUT (R485): its tag rests for three times
that long, and its access takes the FABRIC_TIMEOUT latch. -/
def execFabricTimeout (tag : Nat) (s : State) : Host.Outcome State Fault Refusal :=
  s.run fun c d => match d.reqs.find? fun r => r.tag = tag && decide (r.since + d.fabricMs * 100000 ≤ c.tmr) with
    | none => d
    | some r =>
      let d := { d with deadTags := tset d.deadTags tag (c.tmr + 3 * d.fabricMs * 100000) }
      let vc := if r.mtype = 0x10 || r.mtype = 0x11 then 4 else if r.mtype = 0x18 || r.mtype = 0x19 then 5 else 0
      let d := match r.purpose with
        | .access b t id => match d.thread b t with
          | some th => d.putThread b t (th.latchFault
              { status := 0x18, type := 0x05, engine := 10, step := ((th.accs.find? fun (x : Access) => x.id = id).map fun (x : Access) => x.step).getD th.step,
                node := some r.dst, w20 := r.addr,
                w28 := r.mtype + 2 ^ 7 * vc + 2 ^ 10 * r.link.getD 0 + 2 ^ 17 * (if r.link.isSome then 1 else 0) + 2 ^ 18 * tag,
                w30 := d.fabricMs })
          | none => d
        | .delta => d.askRollback c 5
        -- a survivor is asked again
        | .rebuild => d.request c.tmr 0x41 r.dst (r.addr % 2 ^ 50) (d.rd F.EPC_LAST_LAST) [] .rebuild
        | .posted => d
      d.reqAnswered r 5 []

/-- A host that does not answer a BISnp in time is a silent owner or sharer, and its SPID has failed (R88, R432). -/
def execBirspTimeout (spid line : Nat) (s : State) : Host.Outcome State Fault Refusal :=
  s.run fun c d => match d.lateSnoop c (.spid spid) line with
    | none => d
    | some t =>
      let d := d.snoopAnswer c (.spid spid) line .silent
      let r : FRec := { type := 0x06, cls := 2, collar := if t.collar > 512 then d.collarOf (line * 64) else t.collar,
                        engine := 8, w20 := line * 64 }
      let d := (d.fault c.tmr r).fault c.tmr { r with cls := 3 }
      let d := (d.wr F.CXP_SPID_FAILED spid 1).wr F.CXP_SPID_FCAUSE spid 2
      d.failAgent c (.spid spid)

end Sys2Proof.Machine
end

