-- ==== Sys2Proof/Machine/Retriever.lean ====
section
/-! DEFINITION. The Retriever (spec/08): GATHER_POOL, the three modes of SCATTER_ADD, SHARD_PROBE and the three modes of
ROW_MIGRATE, with the sketch and the redirect table they use. -/
namespace Sys2Proof.Machine

/-! ### Tables and rows -/

/-- R258: may a Retriever opcode use the table? -/
def THdr.rtvOk (h : THdr) : Bool :=
  h.srcOk && h.layout = 0 && h.rowlen ≤ 16384 &&
    ((isFp h.fmt && h.qmode = 0) || ((h.fmt = 3 || h.fmt = 4) && h.qmode = 1))

/-- The row capacity of a run: 256 KiB of whole rows, at most 1,024. -/
def THdr.rowCap (h : THdr) : Nat := min 1024 (262144 / (ceilDiv h.rowBytes 64 * 64))

/-- The bits of a table header's TVA that keys compare (R278, R284). -/
def tableKey (tva : Nat) : Nat := bits tva 6 51

/-- The committed redirect of a row (R284). -/
def Dev.redirectOf (d : Dev) (collar table row : Nat) : Option Redir :=
  (d.redir.find? fun (_, r) => r.valid && r.collar = collar && tableKey r.stable = tableKey table && r.srow = row).map (·.2)

/-- Where a row's data lies: the base and scale storage of its table, the header that shadows name, and its row there. -/
structure RowAt where
  hdr : Nat
  data : Nat
  scale : Nat
  row : Nat
  deriving DecidableEq, Repr

/-- Resolve a row through the redirect table; a redirect's table header is read (R284, R285). -/
def rowAt (w : Who) (h : THdr) (row : Nat) : RM RowAt := do
  match (← get).d.redirectOf w.collar h.tva row with
  | some r =>
    let g ← readHdr w r.dtable
    return { hdr := r.dtable, data := g.data, scale := g.scale, row := r.drow }
  | none => return { hdr := h.tva, data := h.data, scale := h.scale, row := row }

/-- The TVA of a row's first byte. -/
def RowAt.tva (a : RowAt) (h : THdr) : Nat := a.data + a.row * h.rowBytes

/-- Does any granule of a row report SLOW (R270)? -/
def rowSlow (w : Who) (a : RowAt) (h : THdr) : RM Bool := do
  let mut s := false
  for p in pieces (h.rowBytes / 256 + 2) (a.tva h) h.rowBytes do
    if !s then s := ← slowAt w p.1
  return s

/-- A row's elements as FP32, from its stored bytes and scale record (R259). -/
def rowElems (h : THdr) (b : Bytes) (rec : Nat) : List Nat := (List.range h.rowlen).map fun j => rowElem h.fmt b j rec

/-- What reading a row gave: its FP32 elements, from a shadow or not, waiting for flash or not; none when its access
reported REVOKED and the index is dropped (R262). -/
structure RowRead where
  vals : List Nat
  shadow : Bool := false
  waited : Bool := false
  deriving DecidableEq, Repr

/-- Read a row (R259, R262, R270). A REVOKED access drops it; anything else that fails stops the run. DEDUCED (log 57). -/
def readRow (w : Who) (t : Thread) (h : THdr) (row : Nat) : RM (Option RowRead) := do
  let a ← rowAt w h row
  let slow ← rowSlow w a h
  let sh ← if slow then shadowOf w a.hdr t.start else pure none
  match sh with
  | some e =>
    return some { vals := (List.range h.rowlen).map fun j => e.elem (a.row * h.rowlen + j), shadow := true }
  | none =>
    let before := (← get).stop
    let b ← readVa w (a.tva h) h.rowBytes
    let rec_ ← if h.qmode = 1 then readWord w (a.scale + 8 * a.row) else pure 0
    match before, (← get).stop with
    | none, some l =>
      if l.status = 0x13 then
        modify fun (r : Run) => { r with stop := none }
        return none
      else return some { vals := [] }
    | _, _ => return some { vals := rowElems h b rec_, waited := slow }

/-! ### The heavy-hitter sketch (R278) -/

/-- The in-use entries of a bay's sketch. DEDUCED (log 57). -/
def Dev.sketchOf (d : Dev) (bay : Nat) : List (Nat × SkEnt) := d.sketch.filter fun (k, _) => k / 256 = bay

/-- MINC of a bay: its smallest COUNT when all 256 entries are in use, else 0. -/
def Dev.minc (d : Dev) (bay : Nat) : Nat :=
  let es := d.sketchOf bay
  if es.length < 256 then 0 else es.foldl (fun m (_, e) => min m e.count) (2 ^ 32 - 1)

/-- Count m uses of a row in a bay's sketch. -/
def Dev.sketchAdd (d : Dev) (bay collar table row m : Nat) : Dev :=
  let es := d.sketchOf bay
  match es.find? fun (_, e) => e.collar = collar && e.table = table && e.row = row with
  | some (k, e) => { d with sketch := tset d.sketch k { e with count := satTo 32 (e.count + m) } }
  | none =>
    let fresh (err : Nat) (base : Nat) : SkEnt :=
      { collar := collar, table := table, row := row, count := satTo 32 (base + m), err := err }
    match (List.range 256).find? fun e => (tget d.sketch (bay * 256 + e)).isNone with
    | some e => { d with sketch := tset d.sketch (bay * 256 + e) (fresh 0 0) }
    | none =>
      match es.foldl (fun (b : Option (Nat × SkEnt)) x => match b with
          | none => some x
          | some y => if x.2.count < y.2.count then some x else some y) none with
      | some (k, v) => { d with sketch := tset d.sketch k (fresh v.count v.count) }
      | none => d

/-- Count uses while RTV_CFG.SKETCH_EN is 1. -/
def sketchUse (w : Who) (table row m : Nat) : RM Unit :=
  onDev fun d => if d.rd F.RTV_CFG_SKETCH_EN = 1 then d.sketchAdd w.bay w.collar (tableKey table) row m else d

/-! ### GATHER_POOL (R260 to R270) -/

/-- A distinct row of a segment: its multiplicity, weight sum and elements. -/
structure SegRow where
  row : Nat
  m : Nat
  w : Nat
  vals : List Nat
  deriving DecidableEq, Repr

/-- The counts of a GATHER_POOL run and its row cache, least recently used first. -/
structure Pool where
  cache : List (Nat × RowRead) := []
  dropped : Nat := 0
  valid : Nat := 0
  reads : Nat := 0
  shadows : Nat := 0
  empties : Nat := 0
  fell : Fell := {}
  /-- The bag in progress: its segment, accumulators and count. -/
  seg : List SegRow := []
  acc : List Nat := []
  n : Nat := 0
  deriving DecidableEq, Repr

/-- A segment's contribution to its bag (R266). -/
def poolSeg (pool : Nat) (p : Pool) : Pool :=
  let acc := p.seg.foldl (fun acc s =>
    let c := if pool = 2 then s.w else ofInt32 s.m
    List.zipWith (fun a x => ffma c x a) acc s.vals) p.acc
  { p with acc := acc, n := p.n + (p.seg.map (·.m)).sum, seg := [] }

/-- Close the segment in progress: its rows are counted in the sketch and pooled. -/
def closeSeg (w : Who) (table pool : Nat) (p : Pool) : RM Pool := do
  for s in p.seg do sketchUse w table s.row s.m
  return poolSeg pool p

/-- A row of the segment enters the row cache, or becomes the most recently used; a row of no use to the segment in
progress leaves a full cache, the least recently used first (R268). -/
def Pool.keep (p : Pool) (cap row : Nat) (r : RowRead) : Pool :=
  let rest := p.cache.filter fun x => x.1 ≠ row
  let rest := if rest.length < cap then rest
    else match rest.find? fun x => !(p.seg.any fun s => s.row = x.1) with
      | some v => rest.filter fun x => x.1 ≠ v.1
      | none => rest
  { p with cache := rest ++ [(row, r)] }

/-- One position of a bag (R262, R265): a row already in the segment gains a use; a new row is had from the cache or read,
and starts a new segment when the segment is full. -/
def poolPos (w : Who) (t : Thread) (h : THdr) (pool idx wt : Nat) (p : Pool) : RM Pool := do
  let cap := h.rowCap
  if h.rows ≤ idx then return { p with dropped := p.dropped + 1 }
  else if p.seg.any (·.row = idx) then
    return { p with
      valid := p.valid + 1,
      seg := mapIf (fun s => s.row = idx) (fun s => { s with m := s.m + 1, w := fadd s.w wt }) p.seg }
  else
    let (got, p) ← match p.cache.find? (·.1 = idx) with
      | some (_, r) => pure (some r, p)
      | none => do
        match ← readRow w t h idx with
        | none => pure (none, { p with dropped := p.dropped + 1 })
        | some r =>
          pure (some r, { p with
            reads := p.reads + (if r.shadow then 0 else 1), shadows := p.shadows + (if r.shadow then 1 else 0),
            fell := { shadow := p.fell.shadow + (if r.shadow then 1 else 0), waited := p.fell.waited || r.waited } })
    match got with
    | none => return p
    | some r =>
      let p ← if p.seg.length < cap then pure p else closeSeg w h.tva pool p
      let p := p.keep cap idx r
      return { p with valid := p.valid + 1, seg := p.seg ++ [{ row := idx, m := 1, w := wt, vals := r.vals }] }

/-- A bag's output row in OFMT (R263, R266, R269). -/
def poolOut (pool ofmt : Nat) (p : Pool) (rowlen : Nat) : Bytes :=
  let vals := if p.n = 0 then List.replicate rowlen 0
    else if pool = 1 then p.acc.map fun a => fdiv a (ofInt32 p.n)
    else p.acc
  packElems ofmt (vals.map fun v => if ofmt = 0 then v else narrow (fmtOf ofmt) v)

/-- Read a UINT32 of an array of indices, offsets or weights; one that waits for flash is noted (R270). -/
def readU32 (w : Who) (tva : Nat) : RM Nat := do return leNat (← readVa w tva 4)

/-- GATHER_POOL. DEDUCED (log 57). -/
def gatherPool (w : Who) (t : Thread) : RM Res := do
  let word (i : Nat) : Nat := t.words.getD i 0
  let idxA := word 3
  let offs := word 4
  let wgt := word 5
  let out := word 6
  let pool := bits (word 7) 0 2
  let ofmt := bits (word 7) 2 2
  let list := bit (word 7) 4
  let chk := bit (word 7) 5
  let bags := bits (word 7) 8 24
  let baglen := bits (word 7) 32 16
  let h ← readHdr w (word 2)
  if ← stopped then return { status := 0 }
  if !h.rtvOk then return formatRes 0x10
  let head ← if list then readVa w idxA 16 else pure []
  if list && chk && leNat ((head.drop 4).take 4) ≠ offs % 2 ^ 32 then
    return lateRes w { status := 0, rb := 2 ^ 63 }
  let listN := min (leNat (head.take 4)) (2 ^ 24)
  let orow := h.rowlen * (fmtBits ofmt / 8)
  let mut p : Pool := {}
  let mut waited := false
  for b in List.range bags do
    if !(← stopped) then
      let (lo, hi) ← if list then pure (min listN (b * baglen), min listN ((b + 1) * baglen))
        else if offs = 0 then pure (b * baglen, (b + 1) * baglen)
        else do
          if ← slowAt w (offs + 4 * b) then waited := true
          let x ← readU32 w (offs + 4 * b)
          let y ← readU32 w (offs + 4 * b + 4)
          pure (x, y)
      p := { p with seg := [], acc := List.replicate h.rowlen 0, n := 0 }
      for k in List.range (hi - lo) do
        if !(← stopped) then
          let pos := lo + k
          if ← slowAt w (if list then idxA + 16 + 8 * pos else idxA + 4 * pos) then waited := true
          let (i, x) ← if list then do
              let v ← readWord w (idxA + 16 + 8 * pos)
              pure (v % 2 ^ 32, v / 2 ^ 32)
            else do
              let i ← readU32 w (idxA + 4 * pos)
              let x ← if pool = 2 then readU32 w (wgt + 4 * pos) else pure 0
              pure (i, x)
          if !(← stopped) then p ← poolPos w t h pool i x p
      if ← stopped then
        let junk ← freeBytes orow
        let _ ← attempt (writeVa w (out + b * orow) junk)
      else
        p ← closeSeg w h.tva pool p
        if p.n = 0 then p := { p with empties := p.empties + 1 }
        writeVa w (out + b * orow) (poolOut pool ofmt p h.rowlen)
  let q := p
  onDev fun d => ((((d.bump F.RTV_FIDX_INDICES w.collar q.valid).inc F.RTV_FDROP_DROPPED w.collar q.dropped).inc
    F.RTV_FDROP_EMPTY_BAG w.collar q.empties).inc F.RTV_FROWS_READS w.collar q.reads).inc F.RTV_FROWS_SHADOW w.collar q.shadows
  return ({ q.fell with waited := q.fell.waited || waited } : Fell).res w
    { status := 0, ra := satTo 32 q.dropped,
      rb := satTo 32 q.reads + 2 ^ 32 * satTo 16 q.shadows + 2 ^ 48 * satTo 15 q.empties }

/-- GATHER_POOL (R266). -/
def execGatherPool (bay thr : Nat) (env : List Reply) (s : State) : Host.Outcome State Fault Refusal :=
  s.run fun c d => d.runOpcode c bay thr 0x10 (fun _ => true) env 0 gatherPool

/-! ### SCATTER_ADD (R271 to R277) -/

/-- The DTYPE of a floating-point FMT. -/
def fmtDty : Nat → Nat
  | 1 => 4
  | 2 => 3
  | _ => 2

/-- The lines of a row of floating-point elements: line TVA, first element of the line, and the elements [lo, hi) of the
line that are the row's, with the row element that stands at lo. -/
def rowLines (base len es : Nat) : List (Nat × Nat × Nat × Nat) :=
  let first := base / 64
  let last := (base + len * es - 1) / 64
  (List.range (last + 1 - first)).map fun i =>
    let l := (first + i) * 64
    let a := max base l
    let b := min (base + len * es) (l + 64)
    (l, (a - l) / es, (b - l) / es, (a - base) / es)

/-- A row held in private segments (R273). -/
structure HeldRow where
  row : Nat
  m : Nat
  seg : List Nat
  deriving DecidableEq, Repr

/-- The counts of a SCATTER_ADD run. -/
structure Scat where
  valid : Nat := 0
  dropped : Nat := 0
  applies : Nat := 0
  rows : List Nat := []
  held : List HeldRow := []
  /-- The shared segments this run has contributed to (line address). -/
  touched : List Nat := []
  waited : Bool := false
  deriving DecidableEq, Repr

/-- Add a gradient row to the shared segments of the table row's lines (R273); a line whose segment left since this run
last touched it makes one more apply of the row (R274). -/
def scatterShared (w : Who) (t : Thread) (h : THdr) (alpha row : Nat) (g : List Nat) (s : Scat) : RM Scat := do
  let a ← rowAt w h row
  let es := fmtBits h.fmt / 8
  let mut touched := s.touched
  let mut again := false
  for (l, lo, hi, e0) in rowLines (a.tva h) h.rowlen es do
    match ← addrOf w l (needAtomic false) with
    | none => pure ()
    | some addr =>
      let live := ((tget (← get).d.comb w.bay).getD []).any fun x => x.collar = w.collar && x.addr = addr
      if touched.contains addr && !live then again := true
      combAdd w t.step addr 0 (fmtDty h.fmt) (2 ^ hi - 2 ^ lo) false fun _ i old =>
        ffma alpha (g.getD (e0 + i - lo) 0) old
      touched := sadd touched addr
  return { s with touched := touched, applies := s.applies + (if again then 1 else 0), rows := sadd s.rows row }

/-- REQUANT's apply of one held row (R275). -/
def requantRow (w : Who) (h : THdr) (smode : Nat) (x : HeldRow) : RM Unit := do
  let a ← rowAt w h x.row
  let b ← readVa w (a.tva h) h.rowBytes
  let rec_ ← readWord w (a.scale + 8 * a.row)
  if !(← stopped) then
    let v := List.zipWith fadd (rowElems h b rec_) x.seg
    let q := quantGroup h.fmt smode rec_ v
    let codes := packElems h.fmt q.codes
    writeVa w (a.tva h) codes
    if smode ≠ 0 then writeWord w (a.scale + 8 * a.row) q.record

/-- ADAGRAD's apply of one held row (R276): the state at its home, then the row. -/
def adagradRow (w : Who) (h : THdr) (state alpha eps : Nat) (x : HeldRow) : RM Unit := do
  let a ← rowAt w h x.row
  let s := x.seg.foldl (fun s u => ffma u u s) 0
  let dlt := fdiv s (ofInt32 h.rowlen)
  let old ← atomicVa w (state + 4 * x.row)
    { aop := 11, ety := 2, whole := false, fetch := true, at_ := 0, operand := leBytes 4 dlt }
  let g := fadd (leNat old) dlt
  let k := fdiv (alpha ^^^ 2 ^ 31) (fadd (fsqrt g) eps)
  let es := fmtBits h.fmt / 8
  for (l, lo, hi, e0) in rowLines (a.tva h) h.rowlen es do
    match ← addrOf w l (needAtomic false) with
    | none => pure ()
    | some addr =>
      sendSeg w { collar := w.collar, addr := addr, op := 0, dty := fmtDty h.fmt, mask := 2 ^ hi - 2 ^ lo,
                  vals := (List.range (64 / es)).map fun i => fmul k (x.seg.getD (e0 + i - lo) 0) }

/-- Apply every held row and free its segments; a row whose access reports REVOKED is dropped with all its uses. -/
def applyHeld (one : HeldRow → RM Unit) (s : Scat) : RM Scat := do
  let mut s := s
  for x in s.held do
    if !(← stopped) then
      match ← attempt (one x) with
      | none => s := { s with applies := s.applies + 1, rows := sadd s.rows x.row }
      | some l =>
        if l.status = 0x13 then s := { s with dropped := s.dropped + x.m, valid := s.valid - x.m }
        else stopWith l
  return { s with held := [] }

/-- Add a gradient row to the private segments, applying every held row first when it does not fit (R273). DEDUCED (log 57). -/
def scatterPrivate (h : THdr) (f : Nat) (one : HeldRow → RM Unit) (row : Nat) (g : List Nat) (s : Scat) :
    RM Scat := do
  let add (old : List Nat) : List Nat := List.zipWith (fun o x => ffma f x o) old g
  if s.held.any (·.row = row) then
    return { s with held := mapIf (fun x => x.row = row) (fun x => { x with m := x.m + 1, seg := add x.seg }) s.held }
  else
    let per := ceilDiv h.rowlen 16
    let s ← if 1024 < (s.held.length + 1) * per then applyHeld one s else pure s
    return { s with held := s.held ++ [{ row := row, m := 1, seg := add (List.replicate h.rowlen 0) }] }

/-- SCATTER_ADD in a mode: 0 ADD, 1 REQUANT, 2 ADAGRAD. -/
def scatterAdd (mode : Nat) (w : Who) (t : Thread) : RM Res := do
  let word (i : Nat) : Nat := t.words.getD i 0
  let smode := bits (word 6) 2 2
  let hold := bit (word 6) 4
  let alpha := word 6 / 2 ^ 32
  let eps := bits (word 7) 0 32
  let h ← readHdr w (word 2)
  let g ← readHdr w (word 4)
  if ← stopped then return { status := 0 }
  if !h.rtvOk || (mode = 1) ≠ (h.qmode = 1) then return formatRes 0x10
  if g.rowlen ≠ h.rowlen then return formatRes 0x10
  if !(g.srcOk && g.layout = 0 && isFp g.fmt && g.qmode = 0) then return formatRes 0x20
  let one : HeldRow → RM Unit := if mode = 1 then requantRow w h smode else adagradRow w h (word 5) alpha eps
  let mut s : Scat := {}
  for p in List.range g.rows do
    if !(← stopped) then
      if ← slowAt w (word 3 + 4 * p) then s := { s with waited := true }
      let i ← readU32 w (word 3 + 4 * p)
      if ← slowAt w (g.data + p * g.rowBytes) then s := { s with waited := true }
      let b ← readVa w (g.data + p * g.rowBytes) g.rowBytes
      if !(← stopped) then
        if h.rows ≤ i then s := { s with dropped := s.dropped + 1 }
        else
          sketchUse w h.tva i 1
          s := { s with valid := s.valid + 1 }
          let x := rowElems g b 0
          if mode = 0 then s ← scatterShared w t h alpha i x s
          else s ← scatterPrivate h (if mode = 1 then alpha else 0x3F800000) one i x s
  if mode = 0 then
    if !hold then
      let mine := s.touched
      let col := w.collar
      for x in (tget (← get).d.comb w.bay).getD [] do
        if x.collar = col && x.op = 0 && mine.contains x.addr then flushSeg w w.bay (some (w.bay, w.thr, t.step)) x
      s := { s with applies := s.applies + s.rows.length }
    else s := { s with applies := 0 }
  else s ← applyHeld one s
  let q := s
  onDev fun d => ((d.bump F.RTV_FIDX_INDICES w.collar q.valid).inc F.RTV_FDROP_DROPPED w.collar q.dropped).inc
    F.RTV_FAPPLY_APPLIES w.collar q.applies
  return ({ waited := q.waited } : Fell).res w
    { status := 0, ra := satTo 32 q.dropped, rb := satTo 32 q.applies + 2 ^ 32 * satTo 32 q.rows.length }

/-- SCATTER_ADD in ADD mode (R274). -/
def execScatterAddAdd (bay thr : Nat) (env : List Reply) (s : State) : Host.Outcome State Fault Refusal :=
  s.run fun c d => d.runOpcode c bay thr 0x11 (fun ws => bits (ws.getD 6 0) 0 2 = 0) env 0 (scatterAdd 0)

/-- SCATTER_ADD in REQUANT mode (R275). -/
def execRequant (bay thr : Nat) (env : List Reply) (s : State) : Host.Outcome State Fault Refusal :=
  s.run fun c d => d.runOpcode c bay thr 0x11 (fun ws => bits (ws.getD 6 0) 0 2 = 1) env 0 (scatterAdd 1)

/-- SCATTER_ADD in ADAGRAD mode (R276). -/
def execAdagrad (bay thr : Nat) (env : List Reply) (s : State) : Host.Outcome State Fault Refusal :=
  s.run fun c d => d.runOpcode c bay thr 0x11 (fun ws => bits (ws.getD 6 0) 0 2 = 2) env 0 (scatterAdd 2)

/-! ### SHARD_PROBE (R279 to R281) -/

/-- A key as the probe merges it over the bays. -/
structure Hot where
  row : Nat
  count : Nat
  err : Nat
  bays : Nat
  deriving DecidableEq, Repr

/-- Merge one entry. -/
def hotAdd (l : List Hot) (e : SkEnt) : List Hot :=
  match l with
  | [] => [{ row := e.row, count := e.count, err := e.err, bays := 1 }]
  | x :: r =>
    if x.row = e.row then
      { x with count := satTo 32 (x.count + e.count), err := satTo 32 (x.err + e.err), bays := x.bays + 1 } :: r
    else x :: hotAdd r e

/-- Insert by COUNT descending, then row ascending. -/
def hotInsert (x : Hot) : List Hot → List Hot
  | [] => [x]
  | y :: r => if y.count < x.count || (y.count = x.count && x.row < y.row) then x :: y :: r else y :: hotInsert x r

/-- SHARD_PROBE. -/
def shardProbe (w : Who) (t : Thread) : RM Res := do
  let word (i : Nat) : Nat := t.words.getD i 0
  let key := tableKey (word 2)
  let out := word 3
  let topk := bits (word 4) 0 9
  let mine (e : SkEnt) : Bool := e.collar = w.collar && e.table = key
  let d := (← get).d
  let all := (List.range 32).flatMap fun b => ((d.sketchOf b).map (·.2)).filter mine
  let hots := (all.foldl hotAdd []).foldr hotInsert []
  let bound := ((List.range 32).map d.minc).sum
  let top := hots.take topk
  writeVa w (out + 64) (wordBytes (top.flatMap fun x => [x.row + 2 ^ 32 * x.count, x.err + 2 ^ 32 * x.bays]))
  writeVa w out (wordBytes [top.length + 2 ^ 32 * hots.length, d.rd F.EPC_EPOCH_EPOCH, bound, 0, 0, 0, 0, 0])
  if bit (word 4) 9 then onDev fun d => { d with sketch := d.sketch.filter fun (_, e) => !mine e }
  return lateRes w { status := 0, ra := top.length, rb := bound }

/-- SHARD_PROBE (R280). -/
def execShardProbe (bay thr : Nat) (env : List Reply) (s : State) : Host.Outcome State Fault Refusal :=
  s.run fun c d => d.runOpcode c bay thr 0x12 (fun _ => true) env 0 shardProbe

/-! ### ROW_MIGRATE (R282 to R287) -/

/-- The lowest free redirect entry. -/
def Dev.freeRedir (d : Dev) : Nat :=
  ((List.range (d.redir.length + 1)).find? fun k => (tget d.redir k).isNone).getD 0

/-- The store lines of a row when every one lies on this module; none otherwise. -/
def rowHere (w : Who) (base len : Nat) : RM (Option (List Nat)) := do
  let mut ls : List Nat := []
  let mut ok := true
  for i in List.range ((base + len - 1) / 64 + 1 - base / 64) do
    let tva := (base / 64 + i) * 64
    match ← addrOf w tva needRead with
    | none => ok := false
    | some a =>
      let d := (← get).d
      if faNode a ≠ d.rd F.MAP_NODE_NODE then ok := false
      else
        let off := if faDirect a then bits a 0 47 else d.windowOff (faWindow a) (bits a 0 36)
        ls := sadd ls (off / 64)
  return if ok then some ls else none

/-- Copy a row and its scale record between two tables (R286). -/
def copyRow (w : Who) (h : THdr) (a b : RowAt) : RM Unit := do
  copyVa w (a.tva h) (b.tva h) h.rowBytes
  if h.qmode = 1 then copyVa w (a.scale + 8 * a.row) (b.scale + 8 * b.row) 8

/-- Take a descriptor's redirect entries back: a pending MIGRATE is freed, a pending RELEASE or DROP is committed as it
was. DEDUCED (log 58). -/
def Dev.cancelRedir (d : Dev) (p : Redir → Bool) : Dev :=
  { d with redir := d.redir.filterMap fun (k, r) =>
      if r.pending && p r then (if r.valid then some (k, { r with pending := false, dirty := false, watch := [] }) else none)
      else some (k, r) }

/-- ROW_MIGRATE's copy phase (R286). DEDUCED (log 58). -/
def rowMigrate (mode : Nat) (w : Who) (t : Thread) : RM Res := do
  let word (i : Nat) : Nat := t.words.getD i 0
  let count := bits (word 6) 0 13
  let h ← readHdr w (word 2)
  let g ← if mode = 0 then readHdr w (word 3) else pure h
  if ← stopped then return { status := 0 }
  if !h.rtvOk then return formatRes 0x10
  if mode = 0 && !(g.fmt = h.fmt && g.qmode = h.qmode && g.rowlen = h.rowlen) then return formatRes 0x10
  if mode = 0 && !g.rtvOk then return formatRes 0x18
  if 65536 < (← get).d.redir.length + count then
    -- VALID and PENDING entries are the entries in use; the descriptor does not park
    stopWith { status := 0x15, type := 0, engine := 0, step := 0 }
    return { status := 0x15, rb := 2 ^ 63 }
  let mut skipped := 0
  for e in List.range count do
    if !(← stopped) then
      let p ← readWord w (word 4 + 8 * e)
      let srow := p % 2 ^ 32
      let drow := p / 2 ^ 32
      let d := (← get).d
      let mineE := d.redir.find? fun (_, r) => r.collar = w.collar && tableKey r.stable = tableKey h.tva && r.srow = srow
      let bad := h.rows ≤ srow || (mode = 0 && g.rows ≤ drow) || (match mineE with
        | some (_, r) => r.pending || (mode = 0 && r.valid)
        | none => mode ≠ 0)
      let src : RowAt := { hdr := h.tva, data := h.data, scale := h.scale, row := srow }
      let here ← if bad then pure none else rowHere w (src.tva h) h.rowBytes
      match here with
      | none => skipped := skipped + 1
      | some lines =>
        if mode = 0 then
          let dst : RowAt := { hdr := g.tva, data := g.data, scale := g.scale, row := drow }
          let there ← rowHere w (dst.tva g) g.rowBytes
          onDev fun d => { d with redir := tset d.redir d.freeRedir {
              valid := false, pending := true, pmode := 0, collar := w.collar, srow := srow, stable := h.tva,
              dtable := g.tva, drow := drow, ring := t.ring, idx := t.idx, watch := lines,
              dlines := there.getD [] } }
          copyRow w h src dst
        else match mineE with
          | some (k, r) =>
            onDev fun d => { d with redir := tset d.redir k {
              r with pending := true, dirty := false, pmode := mode, ring := t.ring, idx := t.idx, watch := lines } }
            if mode = 1 then
              let a ← rowAt w h srow
              copyRow w h a src
          | none => pure ()
  return lateRes w { status := 0, rb := skipped }

/-- Run ROW_MIGRATE: a run that ends without parking takes its entries back. -/
def Dev.migrateRun (d : Dev) (c : Cx) (bay thr mode : Nat) (env : List Reply) : Dev :=
  let d' := d.runOpcode c bay thr 0x13 (fun ws => bits (ws.getD 5 0) 0 2 = mode) env 2 (rowMigrate mode)
  match d.thread bay thr, d'.thread bay thr with
  | some t, some t' =>
    if t.state ≠ 3 && t'.state = 3 && !t'.park then
      let d' := d'.cancelRedir fun r => r.ring = t.ring && r.idx = t.idx
      match t'.res with
      | some r => if r.status = 0x15 then d'.putThread bay thr { t' with res := some { r with rb := 2 ^ 63 } } else d'
      | none => d'
    else d'
  | _, _ => d'

/-- ROW_MIGRATE in MIGRATE mode (R286). DEDUCED (log 58). -/
def execMigrate (bay thr : Nat) (env : List Reply) (s : State) : Host.Outcome State Fault Refusal :=
  s.run fun c d => d.migrateRun c bay thr 0 env

/-- ROW_MIGRATE in RELEASE mode (R286). -/
def execRelease (bay thr : Nat) (env : List Reply) (s : State) : Host.Outcome State Fault Refusal :=
  s.run fun c d => d.migrateRun c bay thr 1 env

/-- ROW_MIGRATE in DROP mode (R286). -/
def execDrop (bay thr : Nat) (env : List Reply) (s : State) : Host.Outcome State Fault Refusal :=
  s.run fun c d => d.migrateRun c bay thr 2 env

end Sys2Proof.Machine
end

