-- ==== Sys2Proof/Machine/Operands.lean ====
section
/-! DEFINITION. The operand forms of descriptors: the common header (spec/05, R163), and the checks of R167 that the ring
manager makes from the descriptor's own words: reserved codes and bits, values out of range, alignments, and fields that a
mode reserves (R585). -/
namespace Sys2Proof.Machine

/-- Is an opcode implemented (R19, R20)? -/
def opKnown (op : Nat) : Bool :=
  [0x01, 0x02, 0x03, 0x08, 0x09, 0x10, 0x11, 0x12, 0x13, 0x18, 0x19, 0x1A, 0x1B, 0x20, 0x21, 0x22, 0x30, 0x31, 0x32,
    0x38].contains op

/-- Does a bay run the opcode (R165)? -/
def opBay (op : Nat) : Bool := opKnown op && op < 0x30

/-- The fields of the common header. -/
def opOf (ws : List Nat) : Nat := bits (ws.getD 0 0) 0 8
def irqNow (ws : List Nat) : Bool := bit (ws.getD 0 0) 8
def tagOf (ws : List Nat) : Nat := bits (ws.getD 0 0) 32 32
def deadlineOf (ws : List Nat) : Nat := bits (ws.getD 1 0) 0 24

/-- The first of several checks that fails: its byte offset. -/
def firstBad : List (Bool × Nat) → Option Nat
  | [] => none
  | (ok, off) :: r => if ok then firstBad r else some off

/-- Words i to 7 are 0. -/
def zeroFrom (ws : List Nat) (i : Nat) : List (Bool × Nat) :=
  (List.range (8 - i)).map fun k => (decide (ws.getD (i + k) 0 = 0), 8 * (i + k))

/-- Is a value a multiple of n? -/
def aligned (v n : Nat) : Bool := decide (v % n = 0)

/-- MERGE's ALPHA: finite and at least 1.0 (R318). -/
def alphaOk (a : Nat) : Bool := (fp32.decode a).finite && !((fp32.decode a).lt (fp32.decode 0x3F800000))

/-- The checks of an opcode's body, by ascending offset. DEDUCED (log 47). -/
def bodyChecks (op : Nat) (ws : List Nat) : List (Bool × Nat) :=
  let w (i : Nat) : Nat := ws.getD i 0
  let z (i lo n : Nat) : Bool := decide (bits (w i) lo n = 0)
  match op with
  | 0x01 =>
    let mode := bits (w 4) 0 2
    [ (aligned (w 2) 64, 0x10), (aligned (w 3) 64, 0x18),
      (z 4 4 60 && mode ≠ 3 && (mode = 2 || z 4 2 2), 0x20),
      (if mode = 1 then z 5 40 24 && aligned (w 5) 64 && w 5 ≠ 0 else if mode = 2 then aligned (w 5) 64 else w 5 = 0, 0x28),
      (if mode = 2 then !z 6 0 32 && (bit (w 4) 3 || z 6 32 32) else w 6 = 0, 0x30) ] ++ zeroFrom ws 7
  | 0x02 => [(aligned (w 2) 64, 0x10), (aligned (w 3) 64, 0x18), (z 4 1 63, 0x20)] ++ zeroFrom ws 5
  | 0x03 => [(aligned (w 2) 64, 0x10), (aligned (w 3) 64, 0x18), (z 4 3 61 && bits (w 4) 0 2 ≠ 3, 0x20)] ++ zeroFrom ws 5
  | 0x08 =>
    let grp := bit (w 3) 0
    [ (aligned (w 2) 64, 0x10), (z 3 2 14 && z 3 30 34 && (grp || z 3 16 14), 0x18),
      (if grp then aligned (w 4) 256 && z 4 49 15 else aligned (w 4) 8, 0x20),
      (if grp then w 5 = 0 else z 5 9 55 && 1 ≤ w 5 && w 5 ≤ 256, 0x28) ] ++ zeroFrom ws 6
  | 0x09 =>
    [ (aligned (w 2) 64, 0x10), (aligned (w 3) 64, 0x18),
      (z 4 3 1 && z 4 10 54 && bits (w 4) 0 3 ≠ 7 && bits (w 4) 4 3 ≤ 4, 0x20) ] ++ zeroFrom ws 5
  | 0x10 =>
    let pool := bits (w 7) 0 2
    let list := bit (w 7) 4
    let bagged := list || w 4 = 0
    [ (aligned (w 2) 64, 0x10), (aligned (w 3) (if list then 64 else 4), 0x18),
      (if list then z 4 32 32 && (bit (w 7) 5 || z 4 0 32) else aligned (w 4) 4, 0x20),
      (if !list && pool = 2 then w 5 ≠ 0 && aligned (w 5) 4 else w 5 = 0, 0x28), (aligned (w 6) 64, 0x30),
      (pool ≠ 3 && bits (w 7) 2 2 ≠ 3 && (list || !bit (w 7) 5) && z 7 6 2 && !z 7 8 24 && z 7 48 16 &&
        (bagged == !z 7 32 16), 0x38) ]
  | 0x11 =>
    let mode := bits (w 6) 0 2
    [ (aligned (w 2) 64, 0x10), (aligned (w 3) 4, 0x18), (aligned (w 4) 64, 0x20),
      (if mode = 2 then aligned (w 5) 64 else w 5 = 0, 0x28),
      (mode ≠ 3 && (if mode = 1 then bits (w 6) 2 2 ≠ 3 else z 6 2 2) && (mode = 0 || z 6 4 1) && z 6 5 27, 0x30),
      ((mode = 2 || z 7 0 32) && z 7 32 32, 0x38) ]
  | 0x12 =>
    [(true, 0x10), (aligned (w 3) 64, 0x18), (z 4 10 54 && 1 ≤ bits (w 4) 0 9 && bits (w 4) 0 9 ≤ 256, 0x20)] ++ zeroFrom ws 5
  | 0x13 =>
    let mode := bits (w 5) 0 2
    [ (aligned (w 2) 64, 0x10), (if mode = 0 then aligned (w 3) 64 else w 3 = 0, 0x18), (aligned (w 4) 8, 0x20),
      (mode ≠ 3 && z 5 2 62, 0x28), (z 6 13 51 && 1 ≤ w 6 && w 6 ≤ 4096, 0x30) ] ++ zeroFrom ws 7
  | 0x18 =>
    let nq := bits (w 6) 0 4
    let k := bits (w 6) 8 9
    let ef := bits (w 6) 18 11
    [ (aligned (w 2) 256, 0x10), (aligned (w 3) 64, 0x18), (aligned (w 4) 64, 0x20), (aligned (w 5) 64, 0x28),
      (1 ≤ nq && nq ≤ 8 && bits (w 6) 4 3 ≤ 2 && z 6 7 1 && 1 ≤ k && k ≤ 256 && z 6 17 1 && k ≤ ef && ef ≤ 1024 && z 6 29 3 &&
        z 6 48 16, 0x30) ] ++ zeroFrom ws 7
  | 0x19 =>
    [ (aligned (w 2) 256, 0x10), (w 3 ≠ 0 && aligned (w 3) 64, 0x18), (z 5 35 29 && bits (w 5) 32 3 ≤ 2, 0x28) ] ++
      zeroFrom ws 6
  | 0x1A => [(aligned (w 2) 256, 0x10), (w 3 = 0, 0x18), (w 4 = 0, 0x20), (z 5 32 32, 0x28)] ++ zeroFrom ws 6
  | 0x1B =>
    let efc := bits (w 3) 0 11
    [ (aligned (w 2) 256, 0x10),
      (1 ≤ efc && efc ≤ 1024 && z 3 11 5 && !z 3 16 15 && z 3 31 1 && alphaOk (bits (w 3) 32 32), 0x18) ] ++ zeroFrom ws 4
  | 0x20 | 0x21 => (aligned (w 2) 64, 0x10) :: zeroFrom ws 3
  | 0x22 =>
    let qm := bits (w 3) 4 2
    [ (aligned (w 2) 64, 0x10),
      (if bit (w 3) 0 then w 3 = 1
        else (bits (w 3) 1 3 = 3 || bits (w 3) 1 3 = 4) && (qm = 1 || qm = 2) && bits (w 3) 6 3 ≤ 4 &&
          (bits (w 3) 9 2 = 1 || bits (w 3) 9 2 = 2) && z 3 11 53, 0x18) ] ++ zeroFrom ws 4
  | 0x30 => (z 2 48 16, 0x10) :: zeroFrom ws 3
  | 0x31 => (z 2 3 61 && bits (w 2) 0 2 ≤ 1, 0x10) :: zeroFrom ws 3
  | 0x38 =>
    let scope := bits (w 2) 0 2
    [ (scope ≠ 3 && z 2 2 10 && z 2 22 42, 0x10), (if scope = 0 then aligned (w 3) 4096 else w 3 = 0, 0x18),
      (if scope = 0 then z 4 32 32 && w 4 ≠ 0 else w 4 = 0, 0x20),
      (if scope = 2 then z 5 13 51 else w 5 = 0, 0x28) ] ++ zeroFrom ws 6
  | _ => zeroFrom ws 2

/-- R167 over a descriptor's words: the byte offset of the first word that fails, or none. DEDUCED (log 47). -/
def formatCheck (ws : List Nat) : Option Nat :=
  let op := opOf ws
  if !opKnown op then some 0
  else firstBad ([ (decide (bits (ws.getD 0 0) 9 23 = 0), 0),
      (decide (bits (ws.getD 1 0) 24 40 = 0) && (op < 0x30 || deadlineOf ws = 0), 8) ] ++ bodyChecks op ws)

end Sys2Proof.Machine
end

