-- ==== Sys2Proof/Machine/Ring.lean ====
section
/-! DEFINITION. Rings (spec/05): doorbells, fetching, dispatch, completions and interrupts; FENCE and MARK (spec/03, R107,
R108). -/
namespace Sys2Proof.Machine

/-! ### Rings -/

/-- Is hold bit b of a ring set (R162)? -/
def Dev.held? (d : Dev) (r b : Nat) : Bool := d.bitAt F.RNG_HOLD_HOLD r b

/-- Set or clear hold bit b of a ring. -/
def Dev.setHold (d : Dev) (r b : Nat) (on : Bool) : Dev := d.setBit F.RNG_HOLD_HOLD r b on

/-- The rings of function f (R147). -/
def Dev.ringsOf (d : Dev) (f : Nat) : List Nat :=
  (d.instances F.RNG_BIND_BOUND).flatMap fun g =>
    if d.rd F.RNG_BIND_COLLAR g = f && d.rd F.RNG_BIND_BOUND g = 1 then (List.range 8).map fun i => g + i else []

/-- The doorbell records of R178. -/
def Dev.dbRecord (d : Dev) (c : Cx) (r value cause : Nat) : Dev :=
  d.fault c.tmr { type := 0x08, cls := 1, collar := d.ringFn r, ring := some r, w20 := value,
                  w28 := d.rd F.RNG_PTR_FETCH r + 2 ^ 32 * d.rd F.RNG_PTR_TAIL r, w30 := cause }

/-- A doorbell that fails R156 or R185: dropped, counted and reported. -/
def Dev.dbBad (d : Dev) (c : Cx) (r value cause : Nat) : Dev := (d.inc F.RNG_CNT_DB_BAD r).dbRecord c r value cause

/-- Does a doorbell come by the path of its ring (R155): the doorbell page for HOST, the node of the base for FABRIC? -/
def pathOk (fabric : Bool) (base : Nat) (src : Option Nat) : Bool :=
  match src with
  | none => !fabric
  | some n => fabric && base * 4096 / 2 ^ 50 = n

/-- R157: is every TAIL and CHEAD doorbell of the ring dropped? -/
def Dev.dbClosed (d : Dev) (r : Nat) : Bool := d.rd F.RNG_CTL_STATE r ≠ 1 || d.held? r 8

/-- A TAIL doorbell of a ring (R156 to R158, R185). `src` is the node of a fabric message. -/
def Dev.tailDoorbell (d : Dev) (c : Cx) (r value : Nat) (src : Option Nat) : Dev :=
  let t := value % 2 ^ 32
  let fetch := d.rd F.RNG_PTR_FETCH r
  let inRing := decide (sub32 t fetch ≤ 2 ^ d.rd F.RNG_CTL_SIZE r)
  if d.dbClosed r then d.inc F.RNG_CNT_DB_DROP r
  else if !pathOk (d.rd F.RNG_CTL_PLACE r = 1) (d.rd F.RNG_DBASE_ADDR r) src then d.dbBad c r value 1
  else if bit value 32 then
    if !inRing then d.dbBad c r value 0
    else if !d.held? r 1 then d.dbBad c r value 2
    else if d.rd F.RNG_HOLD_OUTSTANDING r ≠ 0 then d.dbBad c r value 4
    else
      let d := ((d.wr F.RNG_PTR_FETCH r t).wr F.RNG_PTR_TAIL r t).setHold r 1 false
      { d with tdb := tput [] d.tdb r [] }
  else if inRing && sub32 t (d.rd F.RNG_PTR_TAIL r) < 2 ^ 31 then
    if t = d.rd F.RNG_PTR_TAIL r then d
    else
      let d := d.wr F.RNG_PTR_TAIL r t
      { d with tdb := tput [] d.tdb r ((tget d.tdb r).getD [] ++ [(t, c.tmr)]) }
  else d.dbBad c r value 0

/-- A CHEAD doorbell of a ring (R156, R157). -/
def Dev.cheadDoorbell (d : Dev) (c : Cx) (r value : Nat) (src : Option Nat) : Dev :=
  let h := value % 2 ^ 32
  let chead := d.rd F.RNG_CPTR_CHEAD r
  if d.dbClosed r then d.inc F.RNG_CNT_DB_DROP r
  else if !pathOk (d.rd F.RNG_CTL_CPLACE r = 1) (d.rd F.RNG_CBASE_ADDR r) src then d.dbBad c r value 1
  else if sub32 h chead ≤ sub32 (d.rd F.RNG_CPTR_CTAIL r) chead then
    if h = chead then d else (d.wr F.RNG_CPTR_CHEAD r h).setHold r 2 false
  else d.dbBad c r value 3

/-- An FHEAD doorbell of a function (R156, R157, R180). -/
def Dev.fheadDoorbell (d : Dev) (c : Cx) (f value : Nat) (src : Option Nat) : Dev :=
  let h := value % 2 ^ 32
  let fhead := d.rd F.FN_FRPTR_FHEAD f
  let bad (cause : Nat) : Dev :=
    (d.inc F.FN_FROVF_FH_BAD f).fault c.tmr
      { type := 0x08, cls := 2, collar := f, w20 := value, w28 := d.rd F.FN_FRPTR_FTAIL f + 2 ^ 32 * fhead, w30 := cause }
  if d.rd F.FN_FRCTL_EN f = 0 then d
  else if d.rd F.FN_STAT_STATE f = 2 then d.inc F.FN_FROVF_FH_DROP f
  else if !pathOk (d.rd F.FN_FRCTL_PLACE f = 1) (d.rd F.FN_FRBASE_ADDR f) src then bad 1
  else if sub32 h fhead ≤ sub32 (d.rd F.FN_FRPTR_FTAIL f) fhead then (d.wr F.FN_FRPTR_FHEAD f h).faultRelease f c.tmr
  else bad 3

/-! ### Fetching -/

/-- Is a completion slot free (R159)? -/
def Dev.slotFree (d : Dev) (r : Nat) : Bool :=
  d.rd F.RNG_HOLD_OUTSTANDING r + sub32 (d.rd F.RNG_CPTR_CTAIL r) (d.rd F.RNG_CPTR_CHEAD r) < 2 ^ d.rd F.RNG_CTL_CSIZE r

/-- Are all rings held for a heel or an orderly power-down (R162, R548)? DEDUCED (log 43). -/
def Dev.ringsHeld (d : Dev) : Bool := d.heelHold || (1 ≤ d.offStep && d.offStep ≤ 3)

/-- Is a ring ready but for its leashes: ACTIVE, no hold but LEASH, and work to fetch (R159)? -/
def Dev.ready (d : Dev) (r : Nat) : Bool :=
  let h := d.rd F.RNG_HOLD_HOLD r
  d.rd F.RNG_CTL_STATE r = 1 && (h = 0 || h = 128) && !d.ringsHeld && d.rd F.EPC_EPOCH_WAIT = 0 && d.rd F.RNG_PTR_FETCH r ≠ d.rd F.RNG_PTR_TAIL r

/-- The rings that are ready with a slot free. -/
def Dev.readyRings (d : Dev) : List Nat := (d.instances F.RNG_CTL_STATE).filter fun r => d.ready r && d.slotFree r

/-- The service leash of a ring. -/
def Dev.ringLeash (d : Dev) (r : Nat) : Nat := 8 * d.ringFn r + d.rd F.RNG_CTL_SERVICE r

/-- Do a ring's subscriber and service leashes hold tokens? -/
def Dev.ringTokens (d : Dev) (r : Nat) : Bool := d.holds lshFn (d.ringFn r) && d.holds lshService (d.ringLeash r)

/-- The ring manager's arbitration (R413): a subscriber, then a service class of it, then the next ring of the class. DEDUCED (log 43). -/
def Dev.grantRing (d : Dev) : Dev × Option Nat :=
  let rs := d.readyRings
  let cost := d.rd F.LSH_CFG_OPCOST
  let fns := (List.range 513).filter fun f => rs.any fun r => d.ringFn r = f
  -- a subscriber whose classes all lack tokens is not served
  let open_ := fns.filter fun f => rs.any fun r => d.ringFn r = f && d.holds lshService (d.ringLeash r)
  match d.grantNext lshFn (deficitKey 0) 0 (fun _ => cost) (List.range 513) open_ with
  | (d, none) => (d, none)
  | (d, some f) =>
    let mine := rs.filter fun r => d.ringFn r = f
    let cls := (List.range 8).filter fun k => mine.any fun r => d.rd F.RNG_CTL_SERVICE r = k
    match d.grantNext lshService (deficitKey 1) (1 + f) (fun _ => cost) ((List.range 8).map fun k => 8 * f + k) (cls.map fun k => 8 * f + k) with
    | (d, none) => (d, none)
    | (d, some s) =>
      let turn := 1024 + s
      match nextAfter (mine.filter fun r => d.ringLeash r = s) (tget d.visited turn) with
      | r :: _ => ({ d with visited := tset d.visited turn r }, some r)
      | [] => (d, none)

/-- The T_db of descriptor i of a ring (R158), and the doorbells still to be reached. -/
def tdbOf (i : Nat) : List (Nat × Nat) → Option (Nat × List (Nat × Nat))
  | [] => none
  | (t, at_) :: r => if 0 < sub32 t i && sub32 t i < 2 ^ 31 then some (at_, (t, at_) :: r) else tdbOf i r

/-- The bay a descriptor of a ring is placed in (R25, R35): the usable bay of its ring's set with the fewest outstanding
descriptors, the lowest-numbered on a tie. -/
def Dev.chooseBay (d : Dev) (r : Nat) : Option Nat :=
  let m := d.rd F.RNG_BAYS_MASK r
  let bs := (List.range 32).filter fun b => (m = 0 || bit m b) && d.usable b
  bs.foldl (fun (x : Option Nat) b => match x with
    | none => some b
    | some a => if d.loadOf b < d.loadOf a then some b else some a) none

/-- Place a descriptor that waits at the ring manager; its ring holds DISPATCH while it cannot be placed (R35). -/
def Dev.place (d : Dev) (r i : Nat) : Dev :=
  let stuck := d.setHold r 5 true
  match d.chooseBay r with
  | none => stuck
  | some b =>
    if 32 ≤ (d.queueOf b).length then stuck
    else
      let d := d.updJob r i fun j => { j with place := .queued b }
      let waits := d.jobs.any fun j => j.ring = r && j.place = .waiting && opBay (opOf j.words)
      if waits then d.setHold r 5 true else d.setHold r 5 false

/-- The rings a FENCE stops (R107, R108). -/
def Dev.fenceRings (d : Dev) (j : Job) : List Nat :=
  if bits (j.words.getD 2 0) 0 2 = 1 then d.ringsOf (d.ringFn j.ring) else [j.ring]

/-- The FENCE hold of every ring: set while a FENCE of its scope has not completed. -/
def Dev.fenceHolds (d : Dev) (rings : List Nat) : Dev :=
  let live := d.jobs.filter fun j => opOf j.words = 0x31 && (match j.place with
    | .ended _ => false
    | _ => true)
  rings.foldl (fun d r => d.setHold r 3 (live.any fun j => (d.fenceRings j).contains r)) d

/-- Charge a descriptor's admission (R410). -/
def Dev.chargeOp (d : Dev) (r : Nat) : Dev :=
  let n := d.rd F.LSH_CFG_OPCOST
  (d.charge lshFn (d.ringFn r) n 0).charge lshService (d.ringLeash r) n 0

/-- Descriptors of a ring that the progress watchdog counts (R485): all but HEEL and those in PENDING_COMMIT. -/
def Dev.watched (d : Dev) (r : Nat) : List Job :=
  d.jobs.filter fun j => j.ring = r && opOf j.words ≠ 0x30 && (match j.place with
    | .parked _ _ _ => false
    | _ => true)

/-- The ring manager takes a descriptor it has read (R159, R163 to R167): the counts advance, the descriptor is checked,
and it is completed with FORMAT, placed in a bay, or kept at the ring manager. -/
def Dev.takeDesc (d : Dev) (c : Cx) (r : Nat) (words : List Nat) : Dev :=
  let i := d.rd F.RNG_PTR_FETCH r
  let (tdb, rest) := (tdbOf i ((tget d.tdb r).getD [])).getD (0, [])
  let dl := deadlineOf words
  let job : Job := { ring := r, idx := i, words := words, epoch := d.rd F.EPC_EPOCH_EPOCH,
                     deadline := if dl = 0 then none else some (tdb + 100 * dl) }
  let d := (d.wr F.RNG_PTR_FETCH r (i + 1)).bump F.RNG_HOLD_OUTSTANDING r
  let d := { d with
    tdb := tput [] d.tdb r rest,
    epochFirst := if (tget d.epochFirst r).isSome then d.epochFirst else tset d.epochFirst r i,
    lastCpl := if (d.watched r).isEmpty then tset d.lastCpl r c.tmr else d.lastCpl,
    jobs := d.jobs ++ [job] }
  match formatCheck words with
  | some off => d.endJob r i (formatRes off)
  | none =>
    let op := opOf words
    if opBay op then d.place r i
    else if op = 0x31 then d.fenceHolds (d.fenceRings job)
    else if op = 0x38 then d.setHold r 4 true
    else d

/-- A ring becomes HALTED (R401). -/
def Dev.halt (d : Dev) (r : Nat) : Dev := d.wr F.RNG_CTL_STATE r 2

/-! ### Completions -/

/-- The words of a completion record (R168). -/
def complWords (j : Job) (r : Res) (phase tmr : Nat) : List Nat :=
  [ j.idx + 2 ^ 32 * opOf j.words + 2 ^ 40 * r.status + 2 ^ 48 * phase + 2 ^ 49 * r.frec + 2 ^ 51 * r.bay.getD 0 +
      2 ^ 56 * (if r.bay.isNone then 1 else 0),
    tagOf j.words + 2 ^ 32 * (r.ra % 2 ^ 32), r.rb % 2 ^ 64, tmr % 2 ^ 48 ]

/-- The address of completion n of a ring. -/
def Dev.complAddr (d : Dev) (r n : Nat) : Nat := d.rd F.RNG_CBASE_ADDR r * 4096 + n % 2 ^ d.rd F.RNG_CTL_CSIZE r * 32

/-- A descriptor leaves the module: one less outstanding. -/
def Dev.dropJob (d : Dev) (c : Cx) (j : Job) : Dev :=
  let d := { d with jobs := d.jobs.filter fun x => x.ring ≠ j.ring || x.idx ≠ j.idx }
  let d := d.dec F.RNG_HOLD_OUTSTANDING j.ring
  { d with lastCpl := tset d.lastCpl j.ring c.tmr }

/-- Raise a ring's interrupt and stop its moderation (R173). -/
def Dev.ringIrq (d : Dev) (r : Nat) : Dev :=
  ({ d with irqP := tdel d.irqP r, irqT := tdel d.irqT r }).raiseVec (d.ringFn r) (d.rd F.RNG_IRQ_VECTOR r)

/-- A completion written counts toward the ring's interrupt (R173). -/
def Dev.moderate (d : Dev) (c : Cx) (r : Nat) (now : Bool) : Dev :=
  if d.rd F.RNG_IRQ_EN r = 0 then d
  else
    let p := (tget d.irqP r).getD 0 + 1
    let d := { d with irqP := tset d.irqP r p, irqT := if p = 1 then tset d.irqT r c.tmr else d.irqT }
    if max 1 (d.rd F.RNG_IRQ_MAXCNT r) ≤ p || now then d.ringIrq r else d

/-- Write the completion record of a descriptor that has ended (R33, R168, R169), raise the interrupt, and let a FENCE's
rings go on. A ring halted by a failed completion write writes none (R172), and a quiesce that discards HOST-placed
records writes none of those (R399). DESIGN CHOICE (log 46). -/
def Dev.writeCompl (d : Dev) (c : Cx) (j : Job) (r : Res) : Dev :=
  let d := (d.dropJob c j).fenceHolds (if opOf j.words = 0x31 then d.fenceRings j else [])
  if (tget d.cplLost j.ring).isSome then d
  else
    let f := d.ringFn j.ring
    let n := d.rd F.RNG_CPTR_CTAIL j.ring
    let phase := (n / 2 ^ d.rd F.RNG_CTL_CSIZE j.ring + 1) % 2
    let fab := d.rd F.RNG_CTL_CPLACE j.ring = 1
    let d := if !fab && d.hostDisc.contains f then d
      else d.putRecord f fab (d.complAddr j.ring n) (complWords j r phase c.tmr)
    let d := (d.bump F.RNG_CPTR_CTAIL j.ring).inc F.RNG_CNT_DONE j.ring
    if !fab && d.hostDisc.contains f then d else d.moderate c j.ring (irqNow j.words)

/-- Is a place an end? -/
def Place.res? : Place → Option Res
  | .ended r => some r
  | _ => none

/-! ### Flushing from outside a run -/

/-- Flush the combining segments that pass, in every bay, with the environment's answers; none when a line is busy. DEDUCED (log 45). -/
def Dev.flushSegs (d : Dev) (c : Cx) (cls : Nat) (env : List Reply) (p : CombSeg → Bool) : Option Dev :=
  let w : Who := { c := c, bay := 0, thr := 0, collar := 0, cls := cls }
  let (_, r) := (flushAll w none fun _ s => p s).run { d := d, env := env }
  if r.busy then none else some r.d

/-- Have all descriptors of a FENCE's scope that were fetched before it completed (R108)? -/
def Dev.fenceDone (d : Dev) (j : Job) : Bool :=
  let before := d.jobs.takeWhile fun x => x.ring ≠ j.ring || x.idx ≠ j.idx
  let f := d.ringFn j.ring
  before.all fun x => if bits (j.words.getD 2 0) 0 2 = 1 then d.ringFn x.ring ≠ f else x.ring ≠ j.ring

end Sys2Proof.Machine
end

