-- ==== Sys2Proof/Machine/RingRows.lean ====
section
/-! DEFINITION. Doorbells, fetching, dispatch, completions and interrupts (spec/05), HEEL, FENCE and MARK descriptors, and
XLATE_INVAL (spec/04, R139 to R144). -/
namespace Sys2Proof.Machine

/-! ### Doorbells -/

/-- Does function f accept a request to its BAR0 with this T bit: in RUN only with T set (R521)? -/
def Dev.teeOk (d : Dev) (f : Nat) (tee : Bool) : Bool := d.rd F.SEC_TDI_STATE f ≠ 2 || tee

/-- Apply a doorbell to local ring l of function f, if the function holds it (R153, R521). -/
def Dev.doorbellAt (d : Dev) (f l : Nat) (tee : Bool) (g : Dev → Nat → Dev) : Dev :=
  match d.globalRing f l with
  | some r => if d.teeOk f tee then g d r else d
  | none => d

/-- A TAIL doorbell through the doorbell page (R156). -/
def execTailDoorbell (fn lring tail : Nat) (tee : Bool) (s : State) : Host.Outcome State Fault Refusal :=
  s.run fun c d => if d.fnUp fn then d.doorbellAt fn lring tee fun d r => d.tailDoorbell c r (tail % 2 ^ 32) none else d

/-- A TAIL doorbell with RESUME = 1 through the doorbell page (R185). -/
def execResumeDoorbell (fn lring tail : Nat) (tee : Bool) (s : State) : Host.Outcome State Fault Refusal :=
  s.run fun c d =>
    if d.fnUp fn then d.doorbellAt fn lring tee fun d r => d.tailDoorbell c r (tail % 2 ^ 32 + 2 ^ 32) none else d

/-- A CHEAD doorbell through the doorbell page (R156). -/
def execCheadDoorbell (fn lring chead : Nat) (tee : Bool) (s : State) : Host.Outcome State Fault Refusal :=
  s.run fun c d => if d.fnUp fn then d.doorbellAt fn lring tee fun d r => d.cheadDoorbell c r (chead % 2 ^ 32) none else d

/-- An FHEAD doorbell through the doorbell page (R180). -/
def execFheadDoorbell (fn fhead : Nat) (tee : Bool) (s : State) : Host.Outcome State Fault Refusal :=
  s.run fun c d => if d.fnUp fn && d.teeOk fn tee then d.fheadDoorbell c fn (fhead % 2 ^ 32) none else d

/-- Is a fabric node the source a doorbell is accepted from (R155)? KIND 0 TAIL, 1 CHEAD, 2 FHEAD. DEDUCED (log 44). -/
def Dev.doorbellSource (d : Dev) (fn lring kind node : Nat) : Bool :=
  if kind = 2 then pathOk (d.rd F.FN_FRCTL_PLACE fn = 1) (d.rd F.FN_FRBASE_ADDR fn) (some node)
  else match d.globalRing fn lring with
    | some r =>
      if kind = 0 then pathOk (d.rd F.RNG_CTL_PLACE r = 1) (d.rd F.RNG_DBASE_ADDR r) (some node)
      else pathOk (d.rd F.RNG_CTL_CPLACE r = 1) (d.rd F.RNG_CBASE_ADDR r) (some node)
    | none => false

/-- A fabric DOORBELL message (R155): applied as the doorbell it names, and answered CMP, or DENIED from any other
source. DEDUCED (log 44). -/
def execDoorbell (h : Hdr) (fn lring kind value : Nat) (s : State) : Host.Outcome State Fault Refusal :=
  s.run fun c d =>
    if 512 < fn || 2 < kind then
      d.emit (.msg { mtype := 0x30, dst := h.src, src := d.rd F.MAP_NODE_NODE, tag := h.tag, status := 1, off := h.off })
    else
      let ok := d.doorbellSource fn lring kind h.src
      let v := value % 2 ^ 64
      let d := if kind = 2 then d.fheadDoorbell c fn v (some h.src)
        else d.doorbellAt fn lring true fun d r =>
          if kind = 0 then d.tailDoorbell c r v (some h.src) else d.cheadDoorbell c r v (some h.src)
      d.emit (.msg { mtype := 0x30, dst := h.src, src := d.rd F.MAP_NODE_NODE, tag := h.tag, status := if ok then 0 else 1,
                     off := h.off })

/-! ### Fetching -/

/-- Show LEASH on the rings that only their leashes hold (R413). -/
def Dev.leashHolds (d : Dev) : Dev :=
  (d.instances F.RNG_CTL_STATE).foldl (fun d r =>
    if d.ready r then d.setHold r 7 (!d.ringTokens r) else d) d

/-- An uncorrectable error in a ring's context halts it (R480). DESIGN CHOICE (log 91). -/
def Dev.ringEcc (d : Dev) (c : Cx) (r : Nat) (e : Ecc) : Dev :=
  (d.halt r).hwRecord c 1 (d.ringFn r) 0 0x0E r 4 e.struct (some r)

/-- The ring manager fetches the descriptor at FETCH of the ring its arbitration grants (R159, R413); a ring that lacks
only a completion slot shows COMP_FULL, and one that lacks tokens shows LEASH. DEDUCED (log 43). -/
def execDescriptorFetch (ring : Nat) (words : List Nat) (ecc : Option Ecc) (s : State) : Host.Outcome State Fault Refusal :=
  s.run fun c d =>
    if !d.ready ring then d
    else if ecc.any (fun e => e.struct = 0x0E && e.uncorr) then d.ringEcc c ring (ecc.getD ⟨0x0E, true, false⟩)
    else if !d.slotFree ring then d.setHold ring 2 true
    else if !d.ringTokens ring then (d.grantRing.1).leashHolds
    else match d.grantRing with
      | (d', some r) =>
        if r = ring then
          ((d'.setHold ring 7 false).chargeOp ring).takeDesc c ring ((words.take 8 ++ List.replicate 8 0).take 8 |>.map (· % 2 ^ 64))
        else d
      | (_, none) => d

/-- A descriptor fetch that is refused, returns poison or times out halts the ring (R161); poison of a read completion from
the host is counted at the CXL port. -/
def execFetchFailure (ring cause : Nat) (s : State) : Host.Outcome State Fault Refusal :=
  s.run fun c d =>
    if !(d.ready ring && d.slotFree ring && d.ringTokens ring) || cause = 0 || 4 < cause then d
    else
      let host := d.rd F.RNG_CTL_PLACE ring = 0
      let addr := d.rd F.RNG_DBASE_ADDR ring * 4096 + d.rd F.RNG_PTR_FETCH ring % 2 ^ d.rd F.RNG_CTL_SIZE ring * 64
      let d := if host && cause = 2 then d.inc F.CXP_PCNT_POISON_RX 0 else d
      (d.halt ring).fault c.tmr { type := 0x09, cls := 1, collar := d.ringFn ring, ring := some ring, w20 := addr, w28 := cause }

/-- A descriptor that waits at the ring manager is placed once the chosen bay's queue has room (R35). -/
def execDispatch (ring idx : Nat) (s : State) : Host.Outcome State Fault Refusal :=
  s.run fun _ d => match d.job ring idx with
    | some j => if j.place = .waiting && opBay (opOf j.words) then d.place ring idx else d
    | none => d

/-- A FREE step thread takes the oldest descriptor of its bay's queue (R189, R191). -/
def execThreadStart (bay thr : Nat) (s : State) : Host.Outcome State Fault Refusal :=
  s.run fun _ d =>
    let lower := (List.range thr).all fun t => (d.thread bay t).isSome
    if 8 ≤ thr || 32 ≤ bay || (d.thread bay thr).isSome || !lower || !d.usable bay then d
    else match (d.queueOf bay).head? with
      | none => d
      | some j =>
        let k := thrKey bay thr
        let op := opOf j.words
        let collar := d.ringFn j.ring
        let t : Thread :=
          { ring := j.ring, idx := j.idx, op := op, collar := collar, words := j.words, deadline := j.deadline,
            step := (d.entryOf op).1, start := d.seq + 1,
            sreg := tput 0 (tput 0 (tput 0 [] 0 j.idx) 1 collar) 2 (d.ringLocal j.ring) }
        let d := { d with seq := d.seq + 1, scrOwner := tset d.scrOwner k collar }
        ((d.vclear k).updJob j.ring j.idx fun j => { j with place := .running bay thr }).putThread bay thr t

/-- A DRAINING thread whose accesses have all been answered becomes FREE (R192). -/
def execThreadFree (bay thr : Nat) (s : State) : Host.Outcome State Fault Refusal :=
  s.run fun _ d => match d.thread bay thr with
    | some t => if t.state = 3 && t.accs.isEmpty && (t.res.isSome || t.park || t.discard) then d.freeThread bay thr t else d
    | none => d

/-! ### HEEL, FENCE, MARK -/

/-- A job of an opcode that waits at the ring manager. -/
def Dev.waitingJob (d : Dev) (ring idx op : Nat) : Option Job :=
  match d.job ring idx with
  | some j => if j.place = .waiting && opOf j.words = op then some j else none
  | none => none

/-- HEEL (R361, R363): DENIED from a function that may not post it, ALREADY for an epoch that has ended, else a request to
the leader, made when the epoch it names is in force, or a local heel of a module in no group. -/
def execHeel (ring idx : Nat) (s : State) : Host.Outcome State Fault Refusal :=
  s.run fun c d => match d.waitingJob ring idx 0x30 with
    | none => d
    | some j =>
      let f := d.ringFn ring
      let expect := bits (j.words.getD 2 0) 0 48
      let now := d.rd F.EPC_EPOCH_EPOCH
      if f ≠ 0 && f ≠ d.rd F.EPC_CFG_HEELFN then d.endJob ring idx { status := 0x12 }
      else if expect ≠ 0 && expect < now || (expect = 0 && j.epoch < now) then
        d.endJob ring idx { status := 0, ra := 1 }
      else
        let d := d.updJob ring idx fun j => { j with place := .control }
        if !d.inGroup then d.want .heel else if now < expect then d else d.askHeel c

/-- FENCE (R108): the rings of its scope hold FENCE, and with FLUSH the collar's segments are flushed. DEDUCED (log 45). -/
def execFence (ring idx : Nat) (env : List Reply) (s : State) : Host.Outcome State Fault Refusal :=
  s.run fun c d => match d.waitingJob ring idx 0x31 with
    | none => d
    | some j =>
      let f := d.ringFn ring
      let d? := if bit (j.words.getD 2 0) 2 then d.flushSegs c (d.rd F.RNG_CTL_SERVICE ring) env fun x => x.collar = f else some d
      match d? with
      | none => d
      | some d => (d.updJob ring idx fun j => { j with place := .control }).fenceHolds (d.fenceRings j)

/-- A FENCE completes once every earlier descriptor of its scope has completed and, with FLUSH, every update it buffered has
been flushed and executed (R108). DEDUCED (log 45). -/
def execFenceComplete (ring idx : Nat) (env : List Reply) (s : State) : Host.Outcome State Fault Refusal :=
  s.run fun c d => match d.job ring idx with
    | none => d
    | some j =>
      if j.place ≠ .control || opOf j.words ≠ 0x31 || !d.fenceDone j then d
      else
        let f := d.ringFn ring
        let d? := if bit (j.words.getD 2 0) 2 then d.flushSegs c (d.rd F.RNG_CTL_SERVICE ring) env fun x => x.collar = f else some d
        match d? with
        | none => d
        | some d => (d.endJob ring idx { status := 0 }).fenceHolds (d.fenceRings j)

/-- MARK (R166): complete with OK. -/
def execMark (ring idx : Nat) (s : State) : Host.Outcome State Fault Refusal :=
  s.run fun _ d => match d.waitingJob ring idx 0x32 with
    | some _ => d.endJob ring idx { status := 0 }
    | none => d

/-! ### XLATE_INVAL -/

/-- An XLATE_INVAL of a scope that may start: its job, and whether R140 refuses it. -/
def Dev.invalStart (d : Dev) (ring idx scope : Nat) : Option (Job × Bool) :=
  match d.waitingJob ring idx 0x38 with
  | none => none
  | some j =>
    let earlier := (d.jobs.takeWhile fun x => x.ring ≠ ring || x.idx ≠ idx).any fun x =>
      opOf x.words = 0x38 && x.place = .waiting
    if bits (j.words.getD 2 0) 0 2 ≠ scope || d.inval.isSome || !d.closing.isEmpty || earlier then none
    else
      let f := d.ringFn ring
      let target := bits (j.words.getD 2 0) 12 10
      let win := j.words.getD 5 0 % 8192
      some (j, f ≠ 0 && (target ≠ f || (scope = 2 && d.rd F.XLT_WCTL_COLLAR win ≠ f)))

/-- An XLATE_INVAL no longer waits: its ring goes on unless another of its descriptors waits (R141). DESIGN CHOICE (log 41). -/
def Dev.invalGo (d : Dev) (ring : Nat) : Dev :=
  d.setHold ring 4 (d.jobs.any fun j => j.ring = ring && opOf j.words = 0x38 && j.place = .waiting)

/-- Steps 1 to 4 of R142. DESIGN CHOICE (log 41). -/
def Dev.invalRun (d : Dev) (c : Cx) (ring idx scope : Nat) (env : List Reply) (hit : List Nat → Tlb → Bool) : Dev :=
  match d.invalStart ring idx scope with
  | none => d
  | some (_, true) => (d.endJob ring idx { status := 0x12 }).invalGo ring
  | some (j, false) =>
    let target := bits (j.words.getD 2 0) 12 10
    match d.flushSegs c (d.rd F.RNG_CTL_SERVICE ring) env fun x => x.collar = target with
    | none => d
    | some d =>
      let d := (d.updJob ring idx fun j => { j with place := .control }).invalGo ring
      let d := d.filterTlb fun e => !(e.collar = target && hit j.words e)
      let d := { d with
        walks := (d.walks.filter fun (x : Walk) => x.collar ≠ target || x.demand || x.started).map fun (x : Walk) =>
          if x.collar = target && x.started then { x with stale := true } else x,
        inval := some ⟨ring, idx, target⟩ }
      d.bump F.XLT_GEN_GEN 0

/-- XLATE_INVAL RANGE (R142): every page of TARGET that meets the range. DESIGN CHOICE (log 41). -/
def execXlateInvalRange (ring idx : Nat) (env : List Reply) (s : State) : Host.Outcome State Fault Refusal :=
  s.run fun c d => d.invalRun c ring idx 0 env fun ws e =>
    let lo := ws.getD 3 0
    let n := bits (ws.getD 4 0) 0 32 * 4096
    e.p * 2 ^ e.s < lo + n && lo < (e.p + 1) * 2 ^ e.s

/-- XLATE_INVAL FUNCTION (R142): every page of TARGET. -/
def execXlateInvalFunction (ring idx : Nat) (env : List Reply) (s : State) : Host.Outcome State Fault Refusal :=
  s.run fun c d => d.invalRun c ring idx 1 env fun _ _ => true

/-- Accesses issued under an old generation and not answered (XLT_STAT.OLD_COUNT). -/
def Dev.oldCount (d : Dev) : Nat :=
  let g := d.rd F.XLT_GEN_GEN
  (d.threads.map fun (_, t) => (t.accs.filter fun a => !a.waiting && a.gen < g).length).sum

/-- Every access of the old generation has been answered: the XLATE_INVAL completes (R142, steps 5 and 6). -/
def execXlateInvalDrainEnd (s : State) : Host.Outcome State Fault Refusal :=
  s.run fun _ d => match d.inval with
    | some v => if d.oldCount = 0 then { d with inval := none }.endJob v.ring v.idx { status := 0 } else d
    | none => d

/-- XLATE_INVAL WINDOW (R144): an OPEN window becomes CLOSING; any other completes at once. -/
def execXlateInvalWindow (ring idx : Nat) (s : State) : Host.Outcome State Fault Refusal :=
  s.run fun _ d => match d.invalStart ring idx 2 with
    | none => d
    | some (_, true) => (d.endJob ring idx { status := 0x12 }).invalGo ring
    | some (j, false) =>
      let w := j.words.getD 5 0 % 8192
      if d.rd F.XLT_WCTL_ST w ≠ 1 then (d.endJob ring idx { status := 0 }).invalGo ring
      else
        let d := (d.updJob ring idx fun j => { j with place := .control }).invalGo ring
        { d.wr F.XLT_WCTL_ST w 2 with closing := d.closing ++ [(w, ring, idx)] }

/-- Remove every copy of one line, recalling a modified one (R36, R144). -/
def recallLine (c : Cx) (line : Nat) : RM Unit := do
  let t : Txn := { line := line, collar := 1023, want := .evict, src := .home, since := c.tmr }
  let _ ← runTxn c t
  onDev fun d => d.freeEnt line

/-- Remove every copy of the lines of the directory that pass; none when one is busy. -/
def Dev.recallAll (d : Dev) (c : Cx) (env : List Reply) (p : DirEnt → Bool) : Option Dev :=
  let lines := (d.dir.filter fun (_, e) => p e).map fun (_, e) => e.line
  let (_, r) := (lines.forM (recallLine c)).run { d := d, env := env }
  if r.busy then none else some r.d

/-- A CLOSING window with no request in flight: its lines are recalled and invalidated and it becomes FREE (R144). -/
def execWindowCloseDrainEnd (window : Nat) (env : List Reply) (s : State) : Host.Outcome State Fault Refusal :=
  s.run fun c d => match d.closing.find? (·.1 = window) with
    | none => d
    | some (_, ring, idx) =>
      if d.rd F.XLT_WINFLT_COUNT window ≠ 0 then d
      else
        let lo := d.rd F.XLT_WBASE_BASE window * 64
        let n := d.rd F.XLT_WCTL_SIZE window * 64
        let col := d.rd F.XLT_WCTL_COLLAR window
        match d.recallAll c env fun e => e.collar = col && lo ≤ e.line && e.line < lo + n with
        | none => d
        | some d =>
          { d.wr F.XLT_WCTL_ST window 0 with closing := d.closing.filter (·.1 ≠ window) }.endJob ring idx { status := 0 }

/-! ### Completions and interrupts -/

/-- The ring manager writes the completion record of a descriptor that has ended (R33). -/
def execCompletionWrite (ring idx : Nat) (s : State) : Host.Outcome State Fault Refusal :=
  s.run fun c d => match d.job ring idx with
    | some j => match j.place.res? with
      | some r => d.writeCompl c j r
      | none => d
    | none => d

/-- The moderation timer of a ring reaches MAXTIME (R173). -/
def execIrqTimer (ring : Nat) (s : State) : Host.Outcome State Fault Refusal :=
  s.run fun c d => match tget d.irqT ring with
    | some t =>
      let m := d.rd F.RNG_IRQ_MAXTIME ring
      if m ≠ 0 && t + 100 * m ≤ c.tmr && d.rd F.RNG_IRQ_EN ring = 1 then d.ringIrq ring else d
    | none => d

/-- An MSI-X entry's Mask bit is cleared: a pending interrupt is sent, unless the function's mask still holds it (R406). DEDUCED (log 94). -/
def Dev.unmaskVec (d : Dev) (f v : Nat) : Dev :=
  if d.rd F.FN_VEC_COUNT f ≤ v then d
  else
    let w3 := d.msixWord f v 3
    let d := { d with msix := tset d.msix ((64 * f + v) * 4 + 3) (w3 - w3 % 2) }
    let ctl := (tget d.msixCtl f).getD 0
    let fab := d.bitAt F.FN_IRQF_FABRIC f v
    if !(d.pba.contains (64 * f + v)) || (!fab && (bit ctl 1 || !bit ctl 0)) then d
    else { d with pba := d.pba.filter (· ≠ 64 * f + v) }.sendVec f v

/-- Clearing an MSI-X entry's Mask bit sends its pending interrupt (R406). DEDUCED (log 94). -/
def execMsixUnmask (fn vec : Nat) (s : State) : Host.Outcome State Fault Refusal :=
  s.run fun _ d => if d.fnUp fn then d.unmaskVec fn vec else d

/-- A completion write fails: the ring halts, its completions from this one on are lost, and COMP_WRITE is reported
(R172). DESIGN CHOICE (log 46). -/
def execCompletionWriteFailure (ring idx cause : Nat) (s : State) : Host.Outcome State Fault Refusal :=
  s.run fun c d => match d.job ring idx with
    | some j => match j.place with
      | .ended _ =>
        if (tget d.cplLost ring).isSome || cause = 0 || 4 < cause then d
        else
          let n := d.rd F.RNG_HOLD_OUTSTANDING ring
          let addr := d.complAddr ring (d.rd F.RNG_CPTR_CTAIL ring)
          let d := ({ d with cplLost := tset d.cplLost ring (idx, n) }.dropJob c j).halt ring
          let d := d.fenceHolds (if opOf j.words = 0x31 then d.fenceRings j else [])
          d.fault c.tmr { type := 0x0A, cls := 1, collar := d.ringFn ring, ring := some ring, w20 := addr, w28 := cause,
                          w30 := idx + 2 ^ 32 * n }
      | _ => d
    | none => d

/-- A fault-ring write fails: the fault ring is disabled, and PF0 is told, or the sideband when it is PF0's own ring
(R182). DESIGN CHOICE (log 46). -/
def execFaultRingWriteFailure (fn cause : Nat) (s : State) : Host.Outcome State Fault Refusal :=
  s.run fun c d =>
    let tail := d.rd F.FN_FRPTR_FTAIL fn
    if 512 < fn || d.rd F.FN_FRCTL_EN fn = 0 || tail = 0 || cause = 0 || 4 < cause then d
    else
      let size := 2 ^ d.rd F.FN_FRCTL_SIZE fn
      let r : FRec := { type := 0x0A, cls := 3, w20 := d.rd F.FN_FRBASE_ADDR fn * 4096 + (tail - 1) % size * 64,
                        w28 := cause, w30 := tail - 1 + 2 ^ 32 }
      let d := d.wr F.FN_FRCTL_EN fn 0
      if fn = 0 then d.sideQueue (r.words d c.tmr 0) else d.fault c.tmr r

end Sys2Proof.Machine
end

