-- ==== Sys2Proof/Machine/Func.lean ====
section
/-! DEFINITION. Functions (spec/12, R392 to R403): enabling, the quiesce, ring binding, enabling and resets, and the ring
progress watchdog and escalation (spec/15, R485, R488). -/
namespace Sys2Proof.Machine

/-- The QUIESCE hold alone (R162). -/
def quiesceHold : Nat := 256

/-! ### Enabling a function -/

/-- The cause of FN_CTL.ERR an enable of function f meets (R395); 0 when it passes. -/
def Dev.enableErr (d : Dev) (f : Nat) : Nat :=
  let n := d.rd F.FN_VEC_COUNT f
  let lo := d.rd F.FN_VEC_BASE f
  let clash := (d.instances F.FN_STAT_STATE).any fun g =>
    g ≠ f && decide (d.rd F.FN_VEC_BASE g < lo + n) && decide (lo < d.rd F.FN_VEC_BASE g + d.rd F.FN_VEC_COUNT g)
  let ringBad := (d.ringsOf f).any fun r => d.rd F.RNG_CTL_STATE r ≠ 0 && decide (n ≤ d.rd F.RNG_IRQ_VECTOR r)
  if f ≠ 0 && !(d.map.fns.any fun x => x.fn == f) then 1
  else if n = 0 || 64 < n || 8192 < lo + n || clash || ringBad ||
    (d.rd F.FN_FRCTL_EN f = 1 && n ≤ d.rd F.FN_FRCTL_VECTOR f) then 2
  else 0

/-- Clear the QUIESCE hold of a function's rings; one in a ring reset of its own keeps it (R402). DEDUCED (log 71). -/
def Dev.releaseQuiesce (d : Dev) (f : Nat) : Dev :=
  (d.ringsOf f).foldl (fun d r => if d.rd F.RNG_CTL_STATE r = 3 then d else d.setHold r 8 false) d

/-- Is the TDI of function f locked: CONFIG_LOCKED or RUN (R518)? -/
def Dev.tdiLocked (d : Dev) (f : Nat) : Bool := d.rd F.SEC_TDI_STATE f = 1 || d.rd F.SEC_TDI_STATE f = 2

/-- A TDI goes to ERROR: HOST-placed records are no longer written (R520). -/
def Dev.tdiFail (d : Dev) (f cause : Nat) : Dev :=
  ({ d with hostDisc := sadd d.hostDisc f }.wr F.FN_STAT_HOSTDISC f 1 |>.wr F.SEC_TDI_STATE f 3).wr F.SEC_TDI_ECAUSE f cause

/-- Is a quiesce of function f requested, running or suspended? DEDUCED (log 71). -/
def Dev.quiescing (d : Dev) (f : Nat) : Bool :=
  d.rd F.FN_STAT_STATE f = 2 || d.wanted.contains (.quiesce f)

/-! ### The steps of a quiesce -/

/-- Complete with FLUSHED what was fetched and not started, and with REVOKED what is parked, freeing its redirect entry
(R397, step 2 and step 3; R402, step 2). DEDUCED (log 71). -/
def Dev.flushUnstarted (d : Dev) (p : Job → Bool) : Dev :=
  let mine := d.jobs.filter p
  let d := mine.foldl (fun d j => match j.place with
    | .waiting => d.endJob j.ring j.idx { status := 0x19 }
    | .queued _ => d.endJob j.ring j.idx { status := 0x19 }
    | .parked b _ _ =>
      (d.cancelRedir fun r => r.ring = j.ring && r.idx = j.idx).endJob j.ring j.idx { status := 0x13, bay := some b }
    | _ => d) d
  mine.foldl (fun d j => (d.invalGo j.ring).fenceHolds (if opOf j.words = 0x31 then d.fenceRings j else [])) d

/-- Step 4 of R397: cancel the function's interrupts, counting each in CANCELLED. -/
def Dev.cancelIrqs (d : Dev) (f : Nat) : Dev :=
  let rs := d.ringsOf f
  let bits_ := d.pba.filter fun v => v / 64 = f
  let timers := rs.filter fun r => 0 < (tget d.irqP r).getD 0
  let d := d.inc F.FN_ICNT_CANCELLED f (bits_.length + timers.length)
  { d with pba := d.pba.filter (fun v => v / 64 ≠ f),
           irqP := d.irqP.filter (fun (r, _) => !rs.contains r),
           irqT := d.irqT.filter (fun (r, _) => !rs.contains r) }

/-- Step 5 of R397: zero the function's subscriber and service leashes. -/
def Dev.zeroLeashes (d : Dev) (f : Nat) : Dev :=
  (List.range 8).foldl (fun d k => d.zeroLeash lshService 1 (8 * f + k)) (d.zeroLeash lshFn 0 f)

/-- Step 6 of R397: zero the scratch partitions and pinned windows that last served the function, and remove its
translations, its Scent state and its sketch entries. DEDUCED (log 71). -/
def Dev.forget (d : Dev) (f : Nat) : Dev :=
  let thr := (d.scrOwner.filter fun (_, x) => x = f).map fun (k, _) => k
  let d := d.filterTlb fun e => e.collar ≠ f
  { d with
    scratch := d.scratch.filter (fun (a, _) => !thr.contains (a / 524288)),
    pwin := d.pwin.filter (fun (a, _) => !thr.contains (a / 2 ^ 40)),
    scrOwner := d.scrOwner.filter (fun (_, x) => x ≠ f),
    walks := d.walks.filter (fun w => w.collar ≠ f),
    sketch := d.sketch.filter (fun (_, e) => e.collar ≠ f) }

/-- A ring's counts go to 0 (R151). -/
def Dev.zeroRing (d : Dev) (r : Nat) : Dev :=
  let d := (((d.wr F.RNG_PTR_FETCH r 0).wr F.RNG_PTR_TAIL r 0).wr F.RNG_CPTR_CTAIL r 0).wr F.RNG_CPTR_CHEAD r 0
  { d with tdb := tdel d.tdb r, cplLost := tdel d.cplLost r, epochFirst := tdel d.epochFirst r, epochPrev := tdel d.epochPrev r }

/-- Step 7 of R397 for the rings that are neither DISABLED nor in a ring reset of their own (R403), and the fault ring. -/
def Dev.ringsAfter (d : Dev) (f : Nat) (enable : Bool) : Dev :=
  let d := (d.ringsOf f).foldl (fun d r =>
    let st := d.rd F.RNG_CTL_STATE r
    if st = 0 || st = 3 then d
    else if enable then ((d.zeroRing r).wr F.RNG_HOLD_HOLD r quiesceHold).wr F.RNG_CTL_STATE r 1
    else ({ d with cplLost := tdel d.cplLost r }.wr F.RNG_CTL_STATE r 0).wr F.RNG_CTL_EN r 0) d
  ((d.wr F.FN_FRPTR_FTAIL f 0).wr F.FN_FRPTR_FHEAD f 0).wr F.FN_FROVF_LOST f 0

/-- Steps 4 to 6 of R397. -/
def Dev.quiesceState (d : Dev) (f : Nat) : Dev := ((d.cancelIrqs f).zeroLeashes f).forget f

/-- Steps 7 and 8 of R397, the checks of R395 made again (R396). -/
def Dev.quiesceEnd (d : Dev) (f : Nat) : Dev :=
  let pe := d.rd F.FN_STAT_PENDING_ENABLE f = 1
  let err := if pe then d.enableErr f else 0
  let on := pe && err = 0
  let d := if err = 0 then d else d.wr F.FN_CTL_ERR f err
  let d := d.ringsAfter f on
  let d := (d.wr F.FN_STAT_STATE f (if on then 1 else 0)).wr F.FN_STAT_PENDING_ENABLE f 0
  let d := (if on then d.releaseQuiesce f else d).wr F.FN_CTL_EN f (if on then 1 else 0)
  let d := if d.tdiStop.contains f then { d.wr F.SEC_TDI_STATE f 0 with tdiStop := d.tdiStop.filter (· ≠ f) } else d
  if d.rd F.SEC_TDI_STATE f = 3 then d else { d with hostDisc := d.hostDisc.filter (· ≠ f) }

/-- Request a quiesce of an ENABLED function with PENDING_ENABLE = pe; one that runs or waits is joined (R394, R396). A
locked TDI goes to ERROR, unless its STOP asks for the quiesce, and PENDING_ENABLE is then clear (R518, R520). DEDUCED (log 70). -/
def Dev.requestQuiesce (d : Dev) (f cause : Nat) (pe : Bool) : Dev :=
  if d.quiescing f || d.rd F.FN_STAT_STATE f ≠ 1 then d
  else
    let locked := d.tdiLocked f && !d.tdiStop.contains f
    let d := (d.wr F.FN_STAT_PENDING_ENABLE f (if pe && !locked then 1 else 0)).wr F.FN_STAT_CAUSE f cause
    let d := if d.rd F.SEC_TDI_STATE f = 3 then d else d.wr F.FN_STAT_HOSTDISC f 0
    (if locked then d.tdiFail f 3 else d).want (.quiesce f)

/-- A cause of R520 for function f: a locked TDI goes to ERROR and its function quiesces with PENDING_ENABLE clear. -/
def Dev.tdiError (d : Dev) (f cause : Nat) : Dev :=
  if !d.tdiLocked f then d
  else
    let d := d.tdiFail f cause
    if d.quiescing f then d.wr F.FN_STAT_PENDING_ENABLE f 0 else d.requestQuiesce f 0 false

/-- Every locked TDI meets a cause of R520. DEDUCED (log 70). -/
def Dev.tdiErrors (d : Dev) (cause : Nat) : Dev :=
  (d.instances F.SEC_TDI_STATE).foldl (fun d f => d.tdiError f cause) d

/-- A write by PF0 software to a register of function f's locked set is ignored while its TDI is locked, and takes the TDI
to ERROR (R519, R520). DEDUCED (log 70). -/
def Dev.pfWrite (d : Dev) (f : Nat) (k : Dev → Dev) : Dev := if d.tdiLocked f then d.tdiError f 1 else k d

/-- A function-level reset (R394, R396): steps 4 to 6 at once on a DISABLED function. -/
def Dev.flr (d : Dev) (f : Nat) : Dev :=
  if d.quiescing f then d
  else if d.rd F.FN_STAT_STATE f = 0 then d.quiesceState f
  else d.requestQuiesce f 1 true

/-- A PCIe function-level reset (R399): the configuration state is reset, every MSI-X entry is masked, and the quiesce
writes no HOST-placed record. -/
def Dev.pcieFlr (d : Dev) (f : Nat) : Dev :=
  let n := d.rd F.FN_VEC_COUNT f
  let d := (List.range n).foldl (fun d v =>
    let w := d.msixWord f v 3
    if bit w 0 then d else { d with msix := tset d.msix ((64 * f + v) * 4 + 3) (w + 1) }) d
  let d := { d with msixCtl := tdel d.msixCtl f }
  let d := d.flr f
  if d.quiescing f then { d with hostDisc := sadd d.hostDisc f }.wr F.FN_STAT_HOSTDISC f 1 else d

/-- FN_CTL.EN = 1 (R394, R396): an enable of a DISABLED function, or PENDING_ENABLE of a quiescing one that the map
lists. -/
def Dev.fnEnable (d : Dev) (f : Nat) : Dev :=
  if d.quiescing f then
    if f ≠ 0 && !(d.map.fns.any fun x => x.fn == f) then d.wr F.FN_CTL_ERR f 1
    else (d.wr F.FN_STAT_PENDING_ENABLE f 1).wr F.FN_CTL_EN f 1
  else if d.rd F.FN_STAT_STATE f = 0 then
    let err := d.enableErr f
    if err ≠ 0 then d.wr F.FN_CTL_ERR f err
    else ((d.wr F.FN_CTL_EN f 1).wr F.FN_STAT_STATE f 1).releaseQuiesce f
  else d

/-- FN_CTL.EN = 0 (R394, R396). -/
def Dev.fnDisable (d : Dev) (f : Nat) : Dev :=
  if d.quiescing f then (d.wr F.FN_STAT_PENDING_ENABLE f 0).wr F.FN_CTL_EN f 0
  else if d.rd F.FN_STAT_STATE f = 1 then (d.requestQuiesce f 0 false).wr F.FN_CTL_EN f 0
  else d

/-- FN_CTL.FLR = 1 (R394, R396). -/
def execFlr (fn : Nat) (s : State) : Host.Outcome State Fault Refusal :=
  s.run fun _ d => if d.pf0Up && fn ≤ 512 then d.pfWrite fn fun d => d.flr fn else d

/-- FN_CTL.EN = 1 (R395). -/
def execFunctionEnable (fn : Nat) (s : State) : Host.Outcome State Fault Refusal :=
  s.run fun _ d => if d.pf0Up && fn ≤ 512 then d.pfWrite fn fun d => d.fnEnable fn else d

/-- FN_CTL.EN = 0 (R394). -/
def execFunctionDisable (fn : Nat) (s : State) : Host.Outcome State Fault Refusal :=
  s.run fun _ d => if d.pf0Up && fn ≤ 512 then d.pfWrite fn fun d => d.fnDisable fn else d

/-- The transition controller starts a quiesce (R397, steps 1 and 2). -/
def execQuiesce (fn : Nat) (s : State) : Host.Outcome State Fault Refusal :=
  s.run fun c d =>
    if 512 < fn || !d.canStart (.quiesce fn) then d
    else
      let d := (d.begin c (.quiesce fn)).wr F.FN_STAT_STATE fn 2
      let d := (d.ringsOf fn).foldl (fun d r => d.setHold r 8 true) d
      d.flushUnstarted fun j => d.ringFn j.ring = fn

/-- Every started descriptor of the function has completed: steps 4 to 8 of R397. -/
def execQuiesceDrainEnd (fn : Nat) (s : State) : Host.Outcome State Fault Refusal :=
  s.run fun _ d =>
    if 512 < fn || !d.runs (.quiesce fn) || d.jobs.any (fun j => d.ringFn j.ring = fn) then d
    else ((d.quiesceState fn).quiesceEnd fn).finish (.quiesce fn)

/-! ### Rings -/

/-- A write by PF0 software to a context of a bound ring belongs to its function's locked set (R519). -/
def Dev.ringWrite (d : Dev) (r : Nat) (k : Dev → Dev) : Dev :=
  if d.rd F.RNG_BIND_BOUND (r / 8 * 8) = 1 then d.pfWrite (d.ringFn r) k else k d

/-- A write of RNG_BIND (R148): ignored unless every ring of the group is DISABLED; refused with ERR for a COLLAR above 512
or an LGROUP the function already holds. DEDUCED (log 71). -/
def Dev.ringBind (d : Dev) (ring collar lgroup : Nat) (bound : Bool) : Dev :=
  let live := (List.range 8).any fun i => d.rd F.RNG_CTL_STATE (ring + i) ≠ 0
  let taken := bound && (d.instances F.RNG_BIND_BOUND).any fun g =>
    g ≠ ring && d.rd F.RNG_BIND_BOUND g = 1 && d.rd F.RNG_BIND_COLLAR g = collar && d.rd F.RNG_BIND_LGROUP g = lgroup
  if ring % 8 ≠ 0 || 4096 ≤ ring || live then d
  else if 512 < collar || taken then d.wr F.RNG_BIND_ERR ring 1
  else
    (((d.wr F.RNG_BIND_COLLAR ring collar).wr F.RNG_BIND_LGROUP ring lgroup).wr F.RNG_BIND_BOUND ring
      (if bound then 1 else 0)).wr F.RNG_BIND_ERR ring 0

/-- A write of RNG_BIND to ring 8g (R148). -/
def execRingBind (ring collar lgroup : Nat) (bound : Bool) (s : State) : Host.Outcome State Fault Refusal :=
  s.run fun _ d => if d.pf0Up then d.ringWrite ring fun d => d.ringBind ring (collar % 1024) (lgroup % 8) bound else d

/-- Does a ring of n bytes fit its address space (R149)? -/
def ringFits (fabric : Bool) (base n : Nat) : Bool :=
  if fabric then base % 2 ^ 50 + n ≤ 2 ^ 50 else base + n ≤ 2 ^ 64

/-- Is a node this module or another module of its region (R150)? -/
def Dev.ownRegion (d : Dev) (node : Nat) : Bool :=
  node = d.rd F.MAP_NODE_NODE || d.map.modules.any fun m => m.node == node

/-- The cause of RNG_CTL.ERR an enable meets, in the order of the codes; 0 when it passes (R149, R150, R404). -/
def Dev.ringErr (d : Dev) (r : Nat) : Nat :=
  let size := d.rd F.RNG_CTL_SIZE r
  let csize := d.rd F.RNG_CTL_CSIZE r
  let fab := d.rd F.RNG_CTL_PLACE r = 1
  let cfab := d.rd F.RNG_CTL_CPLACE r = 1
  let base := d.rd F.RNG_DBASE_ADDR r * 4096
  let cbase := d.rd F.RNG_CBASE_ADDR r * 4096
  if size < 6 || 16 < size || csize < 6 || 16 < csize then 1
  else if !ringFits fab base (64 * 2 ^ size) || !ringFits cfab cbase (32 * 2 ^ csize) then 2
  else if (fab && d.ownRegion (base / 2 ^ 50)) || (cfab && d.ownRegion (cbase / 2 ^ 50)) then 3
  else if d.rd F.RNG_BIND_BOUND (r / 8 * 8) = 0 then 4
  else if d.rd F.FN_VEC_COUNT (d.ringFn r) ≤ d.rd F.RNG_IRQ_VECTOR r then 5
  else 0

/-- RNG_CTL.EN = 1 on a DISABLED ring (R401): the counts go to 0, and QUIESCE holds while the function is not ENABLED. -/
def Dev.ringEnable (d : Dev) (r : Nat) : Dev :=
  if 4096 ≤ r || d.rd F.RNG_CTL_STATE r ≠ 0 then d
  else
    let err := d.ringErr r
    if err ≠ 0 then d.wr F.RNG_CTL_ERR r err
    else
      let held := if d.rd F.FN_STAT_STATE (d.ringFn r) = 1 then 0 else quiesceHold
      (((d.zeroRing r).wr F.RNG_CTL_EN r 1).wr F.RNG_CTL_STATE r 1).wr F.RNG_HOLD_HOLD r held

/-- RNG_CTL.EN = 1 (R401). -/
def execRingEnable (ring : Nat) (s : State) : Host.Outcome State Fault Refusal :=
  s.run fun _ d => if d.pf0Up then d.ringWrite ring fun d => d.ringEnable ring else d

/-- Request a ring reset of an ACTIVE or HALTED ring (R401, R402). -/
def Dev.askRingReset (d : Dev) (r : Nat) : Dev :=
  let st := d.rd F.RNG_CTL_STATE r
  if st = 1 || st = 2 then d.want (.ringReset r) else d

/-- RNG_CTL.EN = 0 (R401). DEDUCED (log 71). -/
def Dev.ringDisable (d : Dev) (r : Nat) : Dev :=
  let st := d.rd F.RNG_CTL_STATE r
  if st = 1 || st = 2 then (d.wr F.RNG_CTL_EN r 0).askRingReset r else d

/-- RNG_CTL.EN = 0 (R401). -/
def execRingResetRequest (ring : Nat) (s : State) : Host.Outcome State Fault Refusal :=
  s.run fun _ d => if d.pf0Up then d.ringWrite ring fun d => d.ringDisable ring else d

/-- Steps 1 and 2 of R402; a ring that a quiesce has DISABLED meanwhile needs none. -/
def execRingReset (ring : Nat) (s : State) : Host.Outcome State Fault Refusal :=
  s.run fun c d =>
    let t : Tr := .ringReset ring
    if !d.canStart t then d
    else if d.rd F.RNG_CTL_STATE ring = 0 then d.supersede (· = t)
    else
      let d := (((d.begin c t).wr F.RNG_CTL_STATE ring 3).setHold ring 8 true)
      d.flushUnstarted fun j => j.ring = ring

/-- Steps 4 and 5 of R402: no moderation, no holds, DISABLED; the counts stay readable. -/
def Dev.ringResetEnd (d : Dev) (r : Nat) : Dev :=
  let d := { d with irqP := tdel d.irqP r, irqT := tdel d.irqT r, cplLost := tdel d.cplLost r }
  ((d.wr F.RNG_HOLD_HOLD r 0).wr F.RNG_CTL_STATE r 0).wr F.RNG_CTL_EN r 0

/-- The ring's started descriptors have completed: steps 4 and 5 of R402. -/
def execRingResetDrainEnd (ring : Nat) (s : State) : Host.Outcome State Fault Refusal :=
  s.run fun _ d =>
    if !d.runs (.ringReset ring) || d.jobs.any (fun j => j.ring = ring) then d
    else (d.ringResetEnd ring).finish (.ringReset ring)

/-! ### Watchdogs -/

/-- The bay, thread and step of a job that runs. -/
def Dev.whereRuns (d : Dev) (j : Job) : Option (Nat × Nat × Nat) :=
  match j.place with
  | .running b t => some (b, t, match d.thread b t with
      | some x => x.step
      | none => 0)
  | _ => none

/-- A ring without a completion for RINGWD (R485): the RING_HANG record (R486) and a request for a ring reset. -/
def execRingProgressWatchdog (ring : Nat) (s : State) : Host.Outcome State Fault Refusal :=
  s.run fun c d =>
    let last := (tget d.lastCpl ring).getD 0
    let wd := d.rd F.RAS_CFG_RINGWD 0
    let st := d.rd F.RNG_CTL_STATE ring
    if (d.watched ring).isEmpty || c.tmr < last + 100000 * wd || !(st = 1 || st = 2) || d.wanted.contains (.ringReset ring) then d
    else
      let old := d.jobs.find? fun j => j.ring = ring
      let run := old.bind d.whereRuns
      let (b, t, step) := run.getD (0, 0, 0)
      let oldest := (old.map fun j => j.idx).getD 0
      let d := d.fault c.tmr
        { type := 0x07, cls := 1, collar := d.ringFn ring, ring := some ring,
          w20 := d.rd F.RNG_PTR_FETCH ring + 2 ^ 32 * d.rd F.RNG_CPTR_CTAIL ring,
          w28 := d.rd F.RNG_HOLD_OUTSTANDING ring + 2 ^ 17 * d.rd F.RNG_HOLD_HOLD ring,
          w30 := oldest + 2 ^ 32 * b + 2 ^ 37 * t + 2 ^ 40 * step + 2 ^ 56 * (if run.isSome then 1 else 0),
          w38 := (c.tmr - last) / 100000 % 2 ^ 32 }
      d.askRingReset ring

/-- A ring reset or quiesce not drained 500 ms after its first step (R398, R488): the ESCALATION record, an event of weight 4
on the bay of the oldest started descriptor, and a request for a module reset. -/
def execEscalation (s : State) : Host.Outcome State Fault Refusal :=
  s.run fun c d =>
    let pick : Option (Nat × Nat × List Job) := match d.active with
      | some (.ringReset r) => some (1, r, d.jobs.filter fun j => j.ring = r)
      | some (.quiesce f) => some (2, f, d.jobs.filter fun j => d.ringFn j.ring = f)
      | _ => none
    match pick, d.active with
    | some (src, obj, js), some t =>
      if js.isEmpty || c.tmr < d.runsSince t + 50000000 then d
      else
        let bay := (js.findSome? d.whereRuns).map fun (x : Nat × Nat × Nat) => x.1
        let d := d.fault c.tmr
          { type := 0x15, cls := 4, w20 := src + 2 ^ 2 * obj, w28 := js.length,
            w30 := bay.getD 0 + 2 ^ 5 * (if bay.isSome then 1 else 0) }
        let d := match bay with
          | some b => d.leakEvent c 2 b 4 0
          | none => d
        d.requestReset c 1
    | _, _ => d

end Sys2Proof.Machine
end

