-- ==== Sys2Proof/Machine/Cxl.lean ====
section
/-! DEFINITION. The CXL host port (spec/13): requests of hosts, back-invalidation, link loss, resets of PCIe, HDM
decoders, Dynamic Capacity, the CCI mailbox and the CDAT. -/
namespace Sys2Proof.Machine

/-! ### Hosts and addresses -/

/-- Is CXL.mem in use: the link is up and negotiated CXL (R419)? -/
def Dev.memUp (d : Dev) : Bool := d.rd F.CXP_LSTAT_UP 0 = 1 && d.rd F.CXP_LSTAT_CXL 0 = 1

/-- The PBR ID requests carry: 0 in HBR mode (R421). -/
def Dev.hostId (d : Dev) (pbr : Nat) : Nat := if d.cxlMode = 1 then pbr else 0

/-- The VALID entry of a host (R421, R422). -/
def Dev.spidOf (d : Dev) (pbr : Nat) : Option Nat :=
  (d.instances F.CXP_SPID_VALID).find? fun i =>
    d.rd F.CXP_SPID_VALID i == 1 && d.rd F.CXP_SPID_PBRID i == d.hostId pbr

/-- The DPA a host address decodes to, if a committed decoder holds it and its way bits name this module (R427). -/
def Dev.dpaOf (d : Dev) (hpa : Nat) : Option Nat :=
  match d.hdm.find? fun h => decide (h.base ≤ hpa) && decide (hpa < h.base + h.size) with
  | none => none
  | some h =>
    let off := hpa - h.base
    let g := 256 * 2 ^ h.ig
    let ways := 2 ^ h.iw
    if off / g % ways = h.pos then some (h.dpa + off / (g * ways) * g + off % g) else none

/-- A CXL.mem request that passed its checks: the host's SPID and the store offset, collar and kennel. -/
structure HostIn where
  spid : Nat
  at_ : Entered
  deriving DecidableEq, Repr

/-- The checks at the CXL port (R54, R423, R427, R520): what is rejected touches nothing but counters. DEDUCED (log 73). -/
def Dev.hostCheck (d : Dev) (pbr hpa : Nat) : Dev × Option HostIn :=
  let miss := (d.inc F.CXP_MEMCNT_NOMATCH 0, none)
  match d.spidOf pbr, d.dpaOf hpa with
  | some i, some off =>
    if d.rd F.CXP_SPID_FAILED i = 1 then miss
    else
      let col := d.rd F.CXP_SPID_COLLAR i
      if d.rd F.SEC_TDI_STATE col = 3 then (d, none)
      else
        let r := d.kennelCheck off col
        let d := d.countReject r
        match r with
        | .ok k => (d.bump F.KNL_INFLT_COUNT k, some ⟨i, ⟨off, col, k, none⟩⟩)
        | _ => (d, none)
  | _, _ => miss

/-- A read or write reaches the port: while the link carries CXL.mem and fewer than 1,024 are in execution (R424). -/
def Dev.hostReady (d : Dev) : Bool := d.memUp && decide (d.hostLoad < 1024) && d.lostFor = 0

/-- The transaction of a host's request. -/
def HostIn.txn (x : HostIn) (c : Cx) (tag : Nat) (want : Want) : Txn :=
  { line := x.at_.off / 64, collar := x.at_.collar, want := want, src := .host x.spid tag, knl := some x.at_.knl,
    since := c.tmr }

/-- A request passes port 36 and its home stack's and reaches its home (R408, R410). -/
def Dev.hostHome (d : Dev) (c : Cx) (x : HostIn) (t : Txn) (len : Nat) : Dev :=
  d.passPorts c t (d.rd F.FN_CTL_XCLASS x.at_.collar) len [36, d.stackOf c.variant x.at_.off]

/-- A rejected read: poisoned data (R55, R433). -/
def Dev.hostPoison (d : Dev) (pbr tag : Nat) : Dev :=
  (d.emit (.cxlData (d.hostId pbr) tag 0 d.devLoad true (List.replicate 64 0))).inc F.CXP_MEMCNT_POISON_TX 0

/-- A rejected write, or a request without data: completed, and dropped (R55). DEDUCED (log 73). -/
def Dev.hostDrop (d : Dev) (pbr tag : Nat) : Dev := d.emit (.cxlCmp (d.hostId pbr) tag 0 d.devLoad)

/-- A read by a host. DEDUCED (log 73). -/
def Dev.hostRead (d : Dev) (c : Cx) (pbr tag hpa : Nat) (want : Want) (data : Bool) (ecc : Option Ecc) : Dev :=
  if !d.hostReady then d
  else match d.hostCheck pbr hpa with
    | (d, none) => if data then d.hostPoison pbr tag else d.hostDrop pbr tag
    | (d, some x) => (d.homeEcc c (x.at_.off / 64) ecc).hostHome c x (x.txn c tag want) (if data then 64 else 0)

/-- A write-back by the owner: written at once, the entry freed (R78, R85); discarded during a rollback (R36); bytes of a
poisoned line are written only when all of them come (R115). DEDUCED (log 73). -/
def Dev.hostBack (d : Dev) (c : Cx) (x : HostIn) (t : Txn) (mask : Nat) (data : Bytes) (poison : Bool) : Dev :=
  let line := x.at_.off / 64
  let d := d.chargePort 36 t.collar (d.rd F.FN_CTL_XCLASS t.collar) 64
  if d.hold = 2 then (d.freeEnt line).answer t 0 0 []
  else if poison then ((d.poisonLine c line).freeEnt line).answer t 0 0 []
  else if mask = 2 ^ 64 - 1 then
    let (d, ok) := d.writeBack c line data
    if ok then d.answer t 0 0 [] else d.release t
  else if d.poisoned line then
    ((d.freeEnt line).inc F.PTR_POISON_DROPPED (d.sliceOf c.variant (line * 64))).answer t 0 0 []
  else
    let (d, ok) := d.storeLine c line mask data
    if ok then ({ d with abuf := d.abuf.filter (· ≠ line) }.freeEnt line).answer t 0 0 [] else d.release t

/-- A write by a host: the owner's is a write-back; any other goes to the home. With the Poison bit set, or with its payload
lost at the port, it stores the poison marker (R433, R480). DEDUCED (log 73). -/
def Dev.hostWrite (d : Dev) (c : Cx) (pbr tag hpa mask : Nat) (data : Bytes) (poison : Bool) (ecc : Option Ecc) : Dev :=
  if !d.hostReady then d
  else
    let d := if poison then d.inc F.CXP_PCNT_POISON_RX 0 else d
    match d.hostCheck pbr hpa with
    | (d, none) => d.hostDrop pbr tag
    | (d, some x) =>
      let lost := payloadLost ecc
      let d := if lost then d.lostPayload c x.at_.collar x.at_.off ecc else d.homeEcc c (x.at_.off / 64) ecc
      let bad := poison || lost
      let t := x.txn c tag (if bad then .poison else .write mask (takeBytes 64 data))
      if d.owns (.spid x.spid) (x.at_.off / 64) then d.hostBack c x t mask (takeBytes 64 data) bad
      else d.hostHome c x t 64

/-- MemRd (R85): shared, ownership or uncached by its MetaValue. -/
def execMemrd (pbr tag hpa : Nat) (mv : Meta) (ecc : Option Ecc) (s : State) : Host.Outcome State Fault Refusal :=
  s.run fun c d =>
    d.hostRead c pbr tag hpa (match mv with
      | .i => .once
      | .s => .shared
      | .a => .own) true ecc

/-- MemRdData: an uncached read (R85). -/
def execMemrddata (pbr tag hpa : Nat) (ecc : Option Ecc) (s : State) : Host.Outcome State Fault Refusal :=
  s.run fun c d => d.hostRead c pbr tag hpa .once true ecc

/-- MemInv with MetaValue A: an ownership read without data (R85). -/
def execMeminv (pbr tag hpa : Nat) (ecc : Option Ecc) (s : State) : Host.Outcome State Fault Refusal :=
  s.run fun c d => d.hostRead c pbr tag hpa .inv false ecc

/-- MemWr (R85, R433). -/
def execMemwr (pbr tag hpa : Nat) (data : Bytes) (poison : Bool) (ecc : Option Ecc) (s : State) :
    Host.Outcome State Fault Refusal :=
  s.run fun c d => d.hostWrite c pbr tag hpa (2 ^ 64 - 1) data poison ecc

/-- MemWrPtl: the bytes a mask selects (R85, R433). -/
def execMemwrptl (pbr tag hpa mask : Nat) (data : Bytes) (poison : Bool) (ecc : Option Ecc) (s : State) :
    Host.Outcome State Fault Refusal :=
  s.run fun c d => d.hostWrite c pbr tag hpa (mask % 2 ^ 64) data poison ecc

/-- MemClnEvct: no directory change (R85). -/
def execMemclnevct (pbr tag hpa : Nat) (s : State) : Host.Outcome State Fault Refusal :=
  s.run fun c d =>
    if !d.hostReady then d
    else match d.hostCheck pbr hpa with
      | (d, none) => d.hostDrop pbr tag
      | (d, some x) => d.answer (x.txn c tag .evict) 0 0 []

/-! ### Back-invalidation -/

/-- BIRsp (R86): BIRspS keeps a shared copy, BIRspI none. DEDUCED (log 73). -/
def execBirsp (pbr line : Nat) (kept : Bool) (s : State) : Host.Outcome State Fault Refusal :=
  s.run fun c d => match d.spidOf pbr with
    | some i => d.snoopAnswer c (.spid i) line (if kept then .ack else .gone)
    | none => d

/-- BIConflict: acknowledged while a BISnp of the line waits for the host; its request joins the conflict queue when it
reaches the home, behind that transaction (R86). -/
def execBiconflict (pbr line : Nat) (s : State) : Host.Outcome State Fault Refusal :=
  s.run fun _ d => match d.spidOf pbr with
    | some i => if (d.waitingOn (.spid i)).contains line then d.emit (.biConflictAck (d.hostId pbr) line) else d
    | none => d

/-! ### Link loss and resets -/

/-- The port's link goes down: its status is cleared, its IDE keys end (R527), and the loss is counted (R420). DESIGN CHOICE (log 72). -/
def Dev.cxlDown (d : Dev) : Dev :=
  let d := ((((d.wr F.CXP_LSTAT_UP 0 0).wr F.CXP_LSTAT_CXL 0 0).wr F.CXP_LSTAT_WIDTH 0 0).wr F.CXP_LSTAT_RATE 0 0).wr
    F.CXP_LSTAT_LOPT 0 0
  let d := (d.wr F.CXP_LSTAT_IDE_CM 0 0).wr F.CXP_LSTAT_IDE_IO 0 0
  { d with ideKeys := [], ideGo := [] }.inc F.CXP_LSTAT_DOWNS 0

/-- A link loss outside a module reset (R420, R432, R520). DESIGN CHOICE (log 72). -/
def Dev.linkLoss (d : Dev) (c : Cx) : Dev :=
  let d := d.cxlDown
  let live := (d.instances F.CXP_SPID_VALID).filter fun i => d.rd F.CXP_SPID_VALID i = 1 && d.rd F.CXP_SPID_FAILED i = 0
  let d := live.foldl (fun d i =>
    ((d.wr F.CXP_SPID_FAILED i 1).wr F.CXP_SPID_FCAUSE i 1).failAgent c (.spid i)) d
  let d := d.tdiErrors 5
  let d := { d with vfEnable := false }
  (List.range 513).foldl (fun d f => d.pcieFlr f) d

/-- DL_Down (R420). A module reset takes the link down itself (R490); a lost module has done so already, and the loss takes
effect here (R494). -/
def execCxlLinkLoss (s : State) : Host.Outcome State Fault Refusal :=
  s.run fun c d =>
    if (d.rd F.CXP_LSTAT_UP 0 = 0 && d.rd F.CXP_LSTAT_WIDTH 0 = 0) || d.running.any (fun r => r.tr.prio = 1) then d
    else d.linkLoss c

/-- PERST# is asserted (R559): a link loss after training. DEDUCED (log 75). -/
def execPerstAssert (s : State) : Host.Outcome State Fault Refusal :=
  s.run fun c d =>
    let d := { d with perst := true }
    if d.rd F.CXP_LSTAT_UP 0 = 0 || d.running.any (fun r => r.tr.prio = 1) then d else d.linkLoss c

/-- PERST# is released (R559): the port may train. -/
def execPerstRelease (s : State) : Host.Outcome State Fault Refusal :=
  s.run fun _ d => { d with perst := false }

/-- A PCIe function-level reset (R399) of a function that the port shows. -/
def execPcieFlr (fn : Nat) (s : State) : Host.Outcome State Fault Refusal :=
  s.run fun _ d =>
    if d.fnUp fn then d.pcieFlr fn else d

/-- The SR-IOV VF Enable bit is cleared: every VF quiesces (R394). -/
def Dev.vfDisable (d : Dev) : Dev :=
  if !d.vfEnable then d
  else ((List.range 512).map (· + 1)).foldl (fun d f => d.requestQuiesce f 3 false) { d with vfEnable := false }

/-- VF Enable is cleared (R394). DEDUCED (log 75). -/
def execVfEnableClear (s : State) : Host.Outcome State Fault Refusal :=
  s.run fun _ d => if d.pf0Up then d.vfDisable else d

/-- An IDE integrity failure (R437): of the CXL.cachemem stream (4) it brings the link down; a selective stream becomes
Insecure, and the TDIs locked to it go to ERROR (R520). -/
def execIdeIntegrityFailure (stream : Nat) (s : State) : Host.Outcome State Fault Refusal :=
  s.run fun c d =>
    if stream = 4 then (if d.rd F.CXP_LSTAT_IDE_CM 0 = 1 then d.linkLoss c else d)
    else if 4 < stream || !d.bitAt F.CXP_LSTAT_IDE_IO 0 stream then d
    else
      let d := { d with ideGo := d.ideGo.filter (· / 4 ≠ stream) }.setBit F.CXP_LSTAT_IDE_IO 0 stream false
      (d.instances F.SEC_TDI_STATE).foldl (fun d f =>
        if d.rd F.SEC_TDI_STREAM f = stream then d.tdiError f 4 else d) d

/-! ### HDM decoders -/

/-- A commit of an HDM decoder (R426, R428): it needs BI Enable and type HDM-DB, supported ways and granularity, and a size
in whole multiples; a locked decoder stays as it is. The decoder's DPA starts where the one committed before it ends,
plus its skip. DESIGN CHOICE (log 72). -/
def Dev.hdmCommit (d : Dev) (dec base size iw ig skip pos : Nat) (hdmDb lock : Bool) : Dev :=
  if 8 ≤ dec || d.hdm.any (fun h => h.dec = dec) then d
  else if !d.biEnable || !hdmDb || 4 < iw || 6 < ig || size = 0 || size % (2 ^ 28 * 2 ^ iw) ≠ 0 then
    { d with hdmErr := sadd d.hdmErr dec }
  else
    let next := match d.hdm.getLast? with
      | some h => h.dpa + h.size / 2 ^ h.iw
      | none => 0
    { d with hdm := d.hdm ++ [({ dec := dec, base := base, size := size, iw := iw, ig := ig, pos := pos, lock := lock,
                                 dpa := next + skip } : Hdm)],
             hdmErr := d.hdmErr.filter (· ≠ dec) }

/-- HDM_DECODER_COMMIT: a write of a decoder's control register in BAR4, with its settings. DESIGN CHOICE (log 72). -/
def execHdmDecoderCommit (dec base size iw ig skip pos : Nat) (hdmDb lock : Bool) (s : State) :
    Host.Outcome State Fault Refusal :=
  s.run fun _ d => d.hdmCommit dec base size iw ig skip pos hdmDb lock

/-! ### Dynamic Capacity -/

/-- The CXL timestamp in nanoseconds: 0 until it is set; TMR counts 10 ns. -/
def Dev.cxlNow (d : Dev) (c : Cx) : Nat :=
  match d.cxlTime with
  | some (v, at_) => v + (c.tmr - at_) * 10
  | none => 0

/-- Post an event to the Dynamic Capacity event log, and raise PF0's vector its policy names (R431, R435). -/
def Dev.postDc (d : Dev) (c : Cx) (kind : Nat) (e : Extent) : Dev :=
  let d := if d.dcLog.length < 256 then
      { d with dcLog := d.dcLog ++ [({ handle := d.dcNext, kind := kind, stamp := d.cxlNow c, ext := e } : DcEvent)],
               dcNext := d.dcNext + 1 }
    else { d with dcOvf := true }.inc F.CXP_DCSTAT_EVLOST 0
  let p := d.evPolicy.getD 4 0
  if p % 4 = 1 then d.raiseVec 0 (bits p 4 4) else d

/-- Offer a host-bound kennel at step 4 of R69: in its region if it lies wholly within it, else counted (R429, R431). -/
def Dev.offerExt (d : Dev) (c : Cx) (k : Nat) : Dev :=
  let r := d.rd F.KNL_BIND_DCREGION k
  let base := d.rd F.KNL_RANGE_BASE k
  let size := d.rd F.KNL_RANGE_SIZE k
  let lo := d.rd F.CXP_DCREG_BASE r
  if lo ≤ base && base + size ≤ lo + d.rd F.CXP_DCREG_SIZE r then
    let e : Extent := { knl := k, region := r, collar := d.rd F.KNL_BIND_COLLAR k, epoch := d.rd F.KNL_BIND_EPOCH k,
                        base := base, size := size }
    { d with extents := d.extents ++ [e], extGen := d.extGen + 1 }.postDc c 0 e
  else d.inc F.CXP_DCSTAT_UNOFFERED 0

/-- Forced release of a kennel's extent at step 3 of R59 (R431). -/
def Dev.forceExt (d : Dev) (c : Cx) (k : Nat) : Dev :=
  match d.extents.find? fun e => e.knl = k with
  | some e => { d with extents := d.extents.filter (fun e => e.knl ≠ k), extGen := d.extGen + 1 }.postDc c 2 e
  | none => d

/-- The tag of an extent (R430), word 0. -/
def Extent.tag (e : Extent) : Nat := e.collar + 2 ^ 16 * e.knl + 2 ^ 32 * e.epoch

/-! ### The mailbox (R435) -/

/-- A mailbox command, which reaches PF0 BAR4 while the link is up. -/
def State.mailbox (s : State) (f : Cx → Dev → Dev) : Host.Outcome State Fault Refusal :=
  s.run fun c d => if d.rd F.CXP_LSTAT_UP 0 = 1 then f c d else d

/-- The mailbox return code of success, and of a command that is not implemented. PRESUMED (log 74). -/
def mbxOk : Nat := 0
/-- PRESUMED (log 74). -/
def mbxUnsupported : Nat := 0x15
/-- PRESUMED (log 74). -/
def mbxInvalid : Nat := 2
/-- PRESUMED (log 74). -/
def mbxHandle : Nat := 0x0E

/-- The words of an event record: handle, kind, timestamp, and the extent's DPA, length and tag. -/
def DcEvent.words (e : DcEvent) : List Nat :=
  [e.handle, e.kind, e.stamp, e.ext.region, e.ext.base * 2 ^ 30, e.ext.size * 2 ^ 30, e.ext.tag, 0]

/-- Get Event Records of log 0 to 4: overflow indication, events lost, whether more remain, and as many records of 128
bytes as the 4 KiB payload holds after its header. Only the DC log (4) ever holds records. -/
def execGetEventRecords (log : Nat) (s : State) : Host.Outcome State Fault Refusal :=
  s.mailbox fun _ d =>
    if 4 < log then d.emit (.mailbox mbxInvalid [])
    else
      let all := if log = 4 then d.dcLog else []
      let out := all.take 31
      d.emit (.mailbox mbxOk ([if log = 4 && d.dcOvf then 1 else 0, d.rd F.CXP_DCSTAT_EVLOST 0,
        if out.length < all.length then 1 else 0, out.length] ++ out.flatMap DcEvent.words))

/-- Clear Event Records: every record, with the overflow indication, or those named by handle, oldest first. -/
def execClearEventRecords (log : Nat) (all : Bool) (handles : List Nat) (s : State) : Host.Outcome State Fault Refusal :=
  s.mailbox fun _ d =>
    if 4 < log then d.emit (.mailbox mbxInvalid [])
    else if log ≠ 4 then d.emit (.mailbox (if handles.isEmpty || all then mbxOk else mbxHandle) [])
    else if all then { d with dcLog := [], dcOvf := false }.emit (.mailbox mbxOk [])
    else if (d.dcLog.take handles.length).map (fun e => e.handle) = handles then
      { d with dcLog := d.dcLog.drop handles.length }.emit (.mailbox mbxOk [])
    else d.emit (.mailbox mbxHandle [])

/-- Get Event Interrupt Policy. -/
def execGetEventInterruptPolicy (s : State) : Host.Outcome State Fault Refusal :=
  s.mailbox fun _ d => d.emit (.mailbox mbxOk d.evPolicy)

/-- Set Event Interrupt Policy: one setting for each of the five logs. -/
def execSetEventInterruptPolicy (settings : List Nat) (s : State) : Host.Outcome State Fault Refusal :=
  s.mailbox fun _ d =>
    { d with evPolicy := (List.range 5).map fun i => settings.getD i 0 % 256 }.emit (.mailbox mbxOk [])

/-- Get FW Info: one slot, active, and the build number of the running image. -/
def execGetFwInfo (s : State) : Host.Outcome State Fault Refusal :=
  s.mailbox fun _ d => d.emit (.mailbox mbxOk [1, 1, d.rd F.SEC_FWSTAT_VERSION 0])

/-- Get Timestamp. -/
def execGetTimestamp (s : State) : Host.Outcome State Fault Refusal :=
  s.mailbox fun c d => d.emit (.mailbox mbxOk [d.cxlNow c])

/-- Set Timestamp: it stamps event records and does not change TMR. -/
def execSetTimestamp (ns : Nat) (s : State) : Host.Outcome State Fault Refusal :=
  s.mailbox fun c d => { d with cxlTime := some (ns % 2 ^ 64, c.tmr) }.emit (.mailbox mbxOk [])

/-- The opcodes the mailbox implements (R435). PRESUMED (log 74). -/
def mbxOpcodes : List Nat :=
  [0x0100, 0x0101, 0x0102, 0x0103, 0x0200, 0x0300, 0x0301, 0x0400, 0x0401, 0x4000, 0x4800, 0x4801, 0x4802, 0x4803]

/-- Get Supported Logs: one log, the Command Effects Log, of 4 bytes an opcode. -/
def execGetSupportedLogs (s : State) : Host.Outcome State Fault Refusal :=
  s.mailbox fun _ d => d.emit (.mailbox mbxOk [1, 4 * mbxOpcodes.length])

/-- Get Log of the Command Effects Log: each opcode with its effects, a free value; any other log is refused. PRESUMED (log 74). -/
def execGetLog (cel : Bool) (s : State) : Host.Outcome State Fault Refusal :=
  s.mailbox fun _ d =>
    if !cel then d.emit (.mailbox mbxInvalid [])
    else
      let (d, ws) := mbxOpcodes.foldl (fun (x : Dev × List Nat) op =>
        let (v, d) := x.1.pick
        (d, x.2 ++ [op + 2 ^ 16 * (v % 2 ^ 16)])) (d, ([] : List Nat))
      d.emit (.mailbox mbxOk ws)

/-- Identify Memory Device: volatile-only and persistent capacity 0, no LSA, no poison list. PRESUMED (log 74). -/
def execIdentifyMemoryDevice (s : State) : Host.Outcome State Fault Refusal :=
  s.mailbox fun _ d => d.emit (.mailbox mbxOk [0, 0, 0, 0])

/-- The regions present (R429). -/
def Dev.dcRegions (d : Dev) : List Nat := (List.range 8).filter fun r => d.rd F.CXP_DCREG_SIZE r ≠ 0

/-- Get Dynamic Capacity Configuration: number of regions, then each one's number, base, length and block size. -/
def execGetDynamicCapacityConfiguration (s : State) : Host.Outcome State Fault Refusal :=
  s.mailbox fun _ d =>
    d.emit (.mailbox mbxOk ([d.dcRegions.length] ++ d.dcRegions.flatMap fun r =>
      [r, d.rd F.CXP_DCREG_BASE r * 2 ^ 30, d.rd F.CXP_DCREG_SIZE r * 2 ^ 30, 2 ^ 30]))

/-- Get Dynamic Capacity Extent List: total, generation number, and from `first` on the extents that a 4 KiB payload
holds: DPA start, length, tag and Shared Extent Sequence (R430). -/
def execGetDynamicCapacityExtentList (first count : Nat) (s : State) : Host.Outcome State Fault Refusal :=
  s.mailbox fun _ d =>
    let out := (d.extents.drop first).take (min count 102)
    d.emit (.mailbox mbxOk ([out.length, d.extents.length, d.extGen] ++ out.flatMap fun e =>
      [e.base * 2 ^ 30, e.size * 2 ^ 30, e.tag, 0, 0]))

/-- Does a host's list of (DPA start, length) name an extent? -/
def Extent.named (e : Extent) (l : List (Nat × Nat)) : Bool := l.contains (e.base * 2 ^ 30, e.size * 2 ^ 30)

/-- A proposed release of a kennel, forwarded to the keepers. -/
def Dev.proposeRelease (d : Dev) (k : Nat) : Dev := d.propose (.omit (d.rd F.MAP_NODE_NODE) (d.rd F.KNL_RANGE_BASE k) (d.rd F.KNL_RANGE_SIZE k))

/-- Add Dynamic Capacity Response (R431): offered extents named are accepted, the others declined, counted and proposed for
release. -/
def execAddDynamicCapacityResponse (accepted : List (Nat × Nat)) (s : State) : Host.Outcome State Fault Refusal :=
  s.mailbox fun _ d =>
    let offered := d.extents.filter fun e => e.answer = 0
    let declined := offered.filter fun e => !e.named accepted
    let mark (e : Extent) : Extent := { e with answer := if e.named accepted then 1 else 2 }
    let d := { d with extents := mapIf (fun (e : Extent) => e.answer = 0) mark d.extents }
    let d := declined.foldl (fun d e => (d.inc F.CXP_PCNT_DECLINED 0).proposeRelease e.knl) d
    d.emit (.mailbox mbxOk [])

/-- Release Dynamic Capacity (R431): the proposed map change is forwarded for each extent named; the kennel stays ACTIVE. -/
def execReleaseDynamicCapacity (released : List (Nat × Nat)) (s : State) : Host.Outcome State Fault Refusal :=
  s.mailbox fun _ d =>
    let d := (d.extents.filter fun e => e.named released).foldl (fun d e => d.proposeRelease e.knl) d
    d.emit (.mailbox mbxOk [])

/-- Any other opcode completes with Unsupported. -/
def execMailboxUnsupported (opcode : Nat) (s : State) : Host.Outcome State Fault Refusal :=
  s.mailbox fun _ d => if mbxOpcodes.contains opcode then d else d.emit (.mailbox mbxUnsupported [])

/-! ### CDAT -/

/-- Raw bandwidth of the trained link in MB/s per direction (R419): the rate times the width over 8. -/
def Dev.rawMbps (d : Dev) : Nat :=
  (match d.rd F.CXP_LSTAT_RATE 0 with
    | 1 => 2500
    | 2 => 5000
    | 3 => 8000
    | 4 => 16000
    | 5 => 32000
    | 6 => 64000
    | _ => 0) * d.rd F.CXP_LSTAT_WIDTH 0 / 8

/-- A CDAT read over the first DOE instance (R436): for each region present a DSMAS (type 0: handle, base, length), four
DSLBIS (type 1: handle, data type 1 read latency or 2 write latency in ns, 4 read or 5 write bandwidth in MB/s) and a
DSEMTS (type 4: handle, specific-purpose). The spec gives no write latency: a free value. PRESUMED (log 74). -/
def execTableAccess (s : State) : Host.Outcome State Fault Refusal :=
  s.mailbox fun _ d =>
    let (wl, d) := d.pick
    let bw := d.rawMbps * 94 / 100
    d.emit (.cdat (d.dcRegions.flatMap fun r =>
      [[0, r, d.rd F.CXP_DCREG_BASE r * 2 ^ 30, d.rd F.CXP_DCREG_SIZE r * 2 ^ 30], [1, r, 1, 600], [1, r, 2, wl % 2 ^ 16],
       [1, r, 4, bw], [1, r, 5, bw], [4, r, 1]]))

end Sys2Proof.Machine
end

