-- ==== Sys2Proof/Machine/TensorRows.lean ====
section
/-! DEFINITION. The descriptors of spec/07 as whole rows: MOVE, MOVE_SPARSE, CONVERT, MCAST_STORE and REDUCE_REMOTE. -/
namespace Sys2Proof.Machine

/-- Do two ranges meet? -/
def meet (a n b m : Nat) : Bool := a < b + m && b < a + n && 0 < n && 0 < m

/-- The ranges a tensor's storage takes. -/
def THdr.ranges (h : THdr) : List (Nat × Nat) :=
  [(h.data, 256 * (if h.layout = 1 then h.present else h.blocks))] ++
    (if h.layout = 1 then [(h.map, h.lvl1 + 64 * h.groups - h.map)] else []) ++
    (if h.qmode = 0 then [] else [(h.scale, 8 * h.records)])

/-- Do the source's and destination's ranges overlap (R230)? -/
def overlap (a b : List (Nat × Nat)) : Bool := a.any fun (x, n) => b.any fun (y, m) => meet x n y m

/-! ### MOVE -/

/-- MOVE TENSOR (R229): every present block, the metadata and the scale records, then the header. -/
def moveTensor (w : Who) (t : Thread) : RM Res := do
  let sa := t.words.getD 2 0
  let da := t.words.getD 3 0
  if sa % 64 ≠ 0 then return formatRes 0x10
  if da % 64 ≠ 0 then return formatRes 0x18
  let s ← readHdr w sa
  let h ← readHdr w da
  if ← stopped then return { status := 0 }
  if !s.srcOk then return formatRes 0x10
  let need := if s.layout = 1 then s.present else s.blocks
  let h' := { s with tva := h.tva, data := h.data, map := h.map, scale := h.scale, dcap := h.dcap }
  if h.layout ≠ s.layout || h.fmt ≠ s.fmt || h.qmode ≠ s.qmode || h.qblk ≠ s.qblk || h.rowlen ≠ s.rowlen ||
      overlap s.ranges h'.ranges then return formatRes 0x10
  if !h.dstOk { s with dcap := h.dcap } || h.dcap < need then return formatRes 0x18
  let ((present, n), fell) ← forBlocks w t s false {} (([], 0) : List Nat × Nat) fun (ps, n) b x => do
    if n < h.dcap then writeVa w (h.data + 256 * (if s.layout = 1 then n else b)) (x.getD [])
    return (ps ++ [b], n + 1)
  if s.layout = 1 && h.dcap < n then
    overflowTo w h' n
    return fell.res w { status := 0, ra := n, rb := 2 ^ 63 + 256 * n }
  if s.layout = 1 then writeMeta w h' present
  if s.qmode ≠ 0 then copyVa w s.scale h.scale (8 * s.records)
  writeHdr w { h' with valid := true, present := if s.layout = 1 then n else 0 }
  return fell.res w { status := 0, ra := satTo 32 n, rb := 256 * n + 8 * s.records + (if s.layout = 1 then s.lvl1 + 64 * s.groups - s.map else 0) }

/-- MOVE RAW (R229): LENGTH bytes, uninterpreted. -/
def moveRaw (w : Who) (t : Thread) : RM Res := do
  let s := t.words.getD 2 0
  let d := t.words.getD 3 0
  let n := t.words.getD 5 0
  if s % 64 ≠ 0 then return formatRes 0x10
  if d % 64 ≠ 0 then return formatRes 0x18
  if meet s n d n then return formatRes 0x10
  let mut waited := false
  for k in List.range (n / 256 + 1) do
    let len := min 256 (n - 256 * k)
    if 0 < len && !(← stopped) then
      if ← slowAt w (s + 256 * k) then waited := true
      copyVa w (s + 256 * k) (d + 256 * k) len
  return ({ waited := waited } : Fell).res w { status := 0, rb := n }

/-- MOVE GATHER (R229, R233): the segments a conditional index list selects, with the scale records of their rows. -/
def moveGather (w : Who) (t : Thread) : RM Res := do
  let sa := t.words.getD 2 0
  let da := t.words.getD 3 0
  let mode := t.words.getD 4 0
  let la := t.words.getD 5 0
  let seg := bits (t.words.getD 6 0) 0 32
  let seq := bits (t.words.getD 6 0) 32 32
  let dpos := bit mode 2
  if sa % 64 ≠ 0 then return formatRes 0x10
  if da % 64 ≠ 0 then return formatRes 0x18
  let s ← readHdr w sa
  let h ← readHdr w da
  if ← stopped then return { status := 0 }
  if !s.srcOk || s.layout ≠ 0 then return formatRes 0x10
  let segB := seg * s.rowBytes
  if h.fmt ≠ s.fmt || h.qmode ≠ s.qmode || h.qblk ≠ s.qblk || h.rowlen ≠ s.rowlen then return formatRes 0x10
  if segB % 256 ≠ 0 then return formatRes 0x10
  if !h.dstOk { s with dcap := h.dcap } || h.layout ≠ 0 then return formatRes 0x18
  let count := s.rows / seg
  let head ← readVa w la 16
  let n := min (leNat (head.take 4)) (2 ^ 24)
  let stale := bit mode 3 && leNat ((head.drop 4).take 4) ≠ seq
  if stale then return lateRes w { status := 0, rb := 2 ^ 63 }
  let mut idx : List Nat := []
  for e in List.range n do
    if !(← stopped) then
      let v ← readWord w (la + 16 + 8 * e)
      idx := idx ++ [v % 2 ^ 32]
  let taken := idx.filter (· < count)
  let rows := if dpos then s.rows else seg * taken.length
  let h' : THdr := { s with tva := h.tva, data := h.data, map := 0, scale := h.scale, dcap := h.dcap, rows := rows,
                            blocks := ceilDiv (rows * s.rowBytes) 256 }
  if overlap s.ranges h'.ranges then return formatRes 0x10
  if h.dcap < h'.blocks then return formatRes 0x18
  let per := if s.qmode = 1 then seg else if s.qmode = 2 then seg * s.rowlen / s.qlen else 0
  let mut fell : Fell := {}
  let mut pos := 0
  for i in taken do
    let dst := if dpos then i else pos
    for k in List.range (segB / 256) do
      if !(← stopped) then
        let (x, fl) ← readDense w t s (i * (segB / 256) + k) fell
        fell := fl
        writeVa w (h.data + dst * segB + 256 * k) x
    if per ≠ 0 then copyVa w (s.scale + 8 * per * i) (h.scale + 8 * per * dst) (8 * per)
    pos := pos + 1
  if !taken.isEmpty || dpos then writeHdr w { h' with valid := true, present := 0 }
  return fell.res w { status := 0, ra := satTo 32 taken.length, rb := satTo 32 (idx.length - taken.length) }

/-- MOVE_TENSOR: MOVE with MODE = 0 (R229). -/
def execMoveTensor (bay thr : Nat) (env : List Reply) (s : State) : Host.Outcome State Fault Refusal :=
  s.run fun c d => d.runOpcode c bay thr 0x01 (fun ws => bits (ws.getD 4 0) 0 2 = 0) env 0 moveTensor

/-- MOVE_RAW: MOVE with MODE = 1 (R229). -/
def execMoveRaw (bay thr : Nat) (env : List Reply) (s : State) : Host.Outcome State Fault Refusal :=
  s.run fun c d => d.runOpcode c bay thr 0x01 (fun ws => bits (ws.getD 4 0) 0 2 = 1) env 0 moveRaw

/-- MOVE_GATHER: MOVE with MODE = 2 (R229). -/
def execMoveGather (bay thr : Nat) (env : List Reply) (s : State) : Host.Outcome State Fault Refusal :=
  s.run fun c d => d.runOpcode c bay thr 0x01 (fun ws => bits (ws.getD 4 0) 0 2 = 2) env 0 moveGather

/-! ### MOVE_SPARSE -/

/-- COMPRESS (R235): a block is present when any of its bytes is not zero. -/
def compress (w : Who) (t : Thread) : RM Res := do
  let sa := t.words.getD 2 0
  let da := t.words.getD 3 0
  let s ← readHdr w sa
  let h ← readHdr w da
  if ← stopped then return { status := 0 }
  if !s.srcOk || s.layout ≠ 0 then return formatRes 0x10
  let h' : THdr := { s with tva := da, layout := 1, data := h.data, map := h.map, scale := h.scale, dcap := h.dcap }
  if !h.dstOk h' then return formatRes 0x18
  let (present, fell) ← forBlocks w t s false {} ([] : List Nat) fun ps b x => do
    let x := x.getD []
    if x.any (· ≠ 0) then
      if ps.length < h.dcap then writeVa w (h.data + 256 * ps.length) x
      return ps ++ [b]
    else return ps
  let n := present.length
  if h.dcap < n then
    overflowTo w h' n
    return lateRes w { status := 0, ra := n, rb := 2 ^ 63 }
  writeMeta w h' present
  if s.qmode ≠ 0 then copyVa w s.scale h.scale (8 * s.records)
  writeHdr w { h' with valid := true, present := n }
  return ({ fell with shadow := 0 } : Fell).res w { status := 0, ra := satTo 32 n }

/-- EXPAND (R235): present blocks from the array, absent ones as zeros. -/
def expand (w : Who) (t : Thread) : RM Res := do
  let sa := t.words.getD 2 0
  let da := t.words.getD 3 0
  let s ← readHdr w sa
  let h ← readHdr w da
  if ← stopped then return { status := 0 }
  if !s.srcOk || s.layout ≠ 1 then return formatRes 0x10
  let h' : THdr := { s with tva := da, layout := 0, data := h.data, map := 0, scale := h.scale, dcap := h.dcap }
  if !h.dstOk h' then return formatRes 0x18
  if h.dcap < s.blocks then return formatRes 0x18
  let (_, fell) ← forBlocks w t s true {} () fun _ b x => writeVa w (h.data + 256 * b) (x.getD (List.replicate 256 0))
  if s.qmode ≠ 0 then copyVa w s.scale h.scale (8 * s.records)
  writeHdr w { h' with valid := true, present := 0 }
  return fell.res w { status := 0, ra := satTo 32 s.blocks }

/-- MOVE_SPARSE has no shadow fallback (R165): its thread reads without one. -/
def noShadow (f : Who → Thread → RM Res) (w : Who) (t : Thread) : RM Res := f w { t with start := 0 }

/-- COMPRESS: MOVE_SPARSE with DIR = 0. -/
def execCompress (bay thr : Nat) (env : List Reply) (s : State) : Host.Outcome State Fault Refusal :=
  s.run fun c d => d.runOpcode c bay thr 0x02 (fun ws => !bit (ws.getD 4 0) 0) env 0 (noShadow compress)

/-- EXPAND: MOVE_SPARSE with DIR = 1. -/
def execExpand (bay thr : Nat) (env : List Reply) (s : State) : Host.Outcome State Fault Refusal :=
  s.run fun c d => d.runOpcode c bay thr 0x02 (fun ws => bit (ws.getD 4 0) 0) env 0 (noShadow expand)

/-! ### CONVERT -/

/-- What converting a tensor has counted. -/
structure ConvAcc where
  out : List Nat := []
  recs : List Nat := []
  sat : Nat := 0
  nans : Nat := 0
  bad : Nat := 0
  deriving DecidableEq, Repr

/-- Convert one row: elements given as source bit patterns through `x` (FP32), into the destination's FMT (R238). -/
def convertRow (s h : THdr) (smode : Nat) (row : Bytes) (srec : Nat → Nat) (given : Nat → Nat) (a : ConvAcc) : ConvAcc :=
  let g (q : Nat) (hdr : THdr) (j : Nat) : Nat := if q = 2 then j / hdr.qlen else 0
  if isFp s.fmt && isFp h.fmt then
    { a with out := a.out ++ (List.range s.rowlen).map fun j =>
        narrow (fmtOf h.fmt) (elemFp32 s.fmt row j 0) }
  else if isFp h.fmt then
    { a with out := a.out ++ (List.range s.rowlen).map fun j =>
        dequant (fmtOf h.fmt) (codeAt s.fmt row j) (srec (g s.qmode s j)) }
  else
    let xs := (List.range s.rowlen).map fun j => elemFp32 s.fmt row j 0
    let len := if h.qmode = 2 then h.qlen else s.rowlen
    let gs := chunks len xs (xs.length / len + 1)
    (gs.zipIdx).foldl (fun a (xs, i) =>
      let q := quantGroup h.fmt smode (given i) xs
      { a with out := a.out ++ q.codes, recs := a.recs ++ [q.record], sat := a.sat + q.sat, nans := a.nans + q.nans,
               bad := a.bad + (if q.bad then 1 else 0) }) a

/-- CONVERT (R237 to R245). -/
def convert (w : Who) (t : Thread) : RM Res := do
  let sa := t.words.getD 2 0
  let da := t.words.getD 3 0
  let m := t.words.getD 4 0
  let smode := bits m 0 2
  let sparse := bit m 2
  let s ← readHdr w sa
  let h ← readHdr w da
  if ← stopped then return { status := 0 }
  if !s.srcOk then return formatRes 0x10
  let rowB := s.rowlen * fmtBits h.fmt / 8
  let blocks := ceilDiv (s.rows * rowB) 256
  let h' : THdr := { h with tva := da, layout := if sparse then 1 else 0, rows := s.rows, rowlen := s.rowlen, blocks := blocks,
                            present := 0, map := if sparse then h.map else 0 }
  let quant := isFp s.fmt && (h.fmt = 3 || h.fmt = 4) && h.qmode ≠ 0 && s.qmode = 0
  let deq := (s.fmt = 3 || s.fmt = 4) && s.qmode ≠ 0 && isFp h.fmt && h.qmode = 0
  let fp := isFp s.fmt && isFp h.fmt && s.qmode = 0 && h.qmode = 0
  if !(quant || deq || fp) then return formatRes 0x10
  if 2 ^ 32 - 1 < blocks then return formatRes 0x18
  if !h.dstOk h' then return formatRes 0x18
  if !quant && smode ≠ 0 then return formatRes 0x20
  if !sparse && h.dcap < blocks then return formatRes 0x18
  let (bytes, fell) ← readLogical w { t with start := 0 } s {}
  let per (x : THdr) : Nat := if x.qmode = 1 then 1 else x.rowlen / x.qlen
  let mut a : ConvAcc := {}
  let mut out : Bytes := []
  for r in List.range s.rows do
    if !(← stopped) then
      let mut srecs : List Nat := []
      let mut given : List Nat := []
      if deq then
        for i in List.range (per s) do
          let v ← readWord w (s.scale + 8 * (r * per s + i))
          srecs := srecs ++ [v]
      if quant && smode = 0 then
        for i in List.range (per h') do
          let v ← readWord w (h.scale + 8 * (r * per h' + i))
          given := given ++ [v]
      let row := (bytes.drop (r * s.rowBytes)).take s.rowBytes
      a := convertRow s h' smode row (fun i => srecs.getD i 0) (fun i => given.getD i 0) { a with out := [] }
      out := out ++ packElems h.fmt a.out
  let blk (b : Nat) : Bytes := takeBytes 256 (out.drop (256 * b))
  let present := (List.range blocks).filter fun b => !sparse || (blk b).any (· ≠ 0)
  let rb := satTo 32 a.nans + 2 ^ 32 * satTo 31 a.bad
  if h.dcap < present.length then
    overflowTo w h' present.length
    return lateRes w { status := 0, ra := present.length, rb := rb + 2 ^ 63 }
  for (b, i) in present.zipIdx do writeVa w (h.data + 256 * (if sparse then i else b)) (blk b)
  if sparse then writeMeta w h' present
  if quant && smode ≠ 0 then writeVa w h.scale (wordBytes a.recs)
  writeHdr w { h' with valid := true, present := if sparse then present.length else 0 }
  return fell.res w { status := 0, ra := satTo 32 a.sat, rb := rb }

/-- CONVERT (R238). -/
def execConvert (bay thr : Nat) (env : List Reply) (s : State) : Host.Outcome State Fault Refusal :=
  s.run fun c d => d.runOpcode c bay thr 0x03 (fun _ => true) env 0 convert

/-! ### MCAST_STORE -/

/-- How a destination's refusal counts in R248's order; local refusals of the line count as DENIED. -/
def mcastStatus (l : Latch) : Nat :=
  if l.type = 0x01 && (l.w28 % 256 = 0x0B || l.w28 % 256 = 0x0C) then 0x12 else l.status

/-- A member's answer to a multicast block: status of R458 as a status of R171; none answered in time is TIMEOUT. -/
def memberStatus : Option Reply → Nat
  | some (.status 1) => 0x12
  | some (.status 2) => 0x13
  | some (.status 3) => 0x14
  | some (.status 4) => 0x10
  | some _ => 0
  | none => 0x18

/-- Rank of R248: which failure decides. -/
def mcastRank : Nat → Nat
  | 0x12 => 1
  | 0x13 => 2
  | 0x14 => 3
  | 0x18 => 4
  | 0 => 9
  | _ => 5

/-- A destination of an MCAST_STORE: its address, or a member of the group, and its failure so far. -/
structure McDest where
  tva : Nat := 0
  node : Option Nat := none
  failed : Nat := 0
  latch : Option Latch := none
  deriving DecidableEq, Repr

/-- Write one block to a destination of a list. -/
def mcWrite (w : Who) (b : Nat) (x : Bytes) (m : McDest) : RM McDest := do
  if m.failed ≠ 0 then return m
  else match ← attempt (writeVa w (m.tva + 256 * b) x) with
    | none => return m
    | some l =>
      if mcastStatus l = 0x11 then
        stopWith l
        return m
      else return { m with failed := mcastStatus l, latch := some l }

/-- This module as a member of the group: the block resolves through the window table (R247). -/
def mcSelf (w : Who) (dest b : Nat) (x : Bytes) : RM Nat := do
  let me := (← get).d.rd F.MAP_NODE_NODE
  let win := faWindow dest
  let at_ := bits dest 0 36 + 256 * b
  if (← get).d.windowOk win at_ needWrite ((← get).d.groupNodes w.collar |>.contains me) false then
    let (d, loc) := (← get).d.checkIn ((← get).d.windowOff win at_) ((← get).d.rd F.XLT_WCTL_COLLAR win) (some win)
    onDev fun _ => d
    match loc with
    | .here off col k wn =>
      let (st, _) ← runTxn w.c { line := off / 64, n := 4, collar := col, want := .write (2 ^ 256 - 1) x,
                                 src := .thread w.bay w.thr 0, knl := some k, win := wn, since := w.c.tmr }
      return if st = 3 then 0x14 else 0
    | .revoked => return 0x13
    | _ => return 0x12
  else
    onDev fun d => d.inc F.XLT_WREJ_COUNT win
    return 0x12

/-- Send one block to the group: one message, answered by every member (R247). -/
def mcSend (w : Who) (grp dest b : Nat) (x : Option Bytes) (ms : List McDest) : RM (List McDest) := do
  let me := (← get).d.rd F.MAP_NODE_NODE
  onDev fun d => d.emit (.msg { mtype := if x.isSome then 0x18 else 0x19, grp := true, dst := grp, src := me,
                                off := dest % 2 ^ 50 + 256 * b, payload := x.getD [] })
  let mut out : List McDest := []
  for m in ms do
    if m.node = some me then
      if m.failed ≠ 0 then out := out ++ [m]
      else
        let st ← mcSelf w dest b (x.getD (List.replicate 256 0))
        out := out ++ [{ m with failed := st }]
    else
      let st := memberStatus (← nextReply)
      out := out ++ [if m.failed ≠ 0 then m else { m with failed := st }]
  return out

/-- The latch of a failed member: POISONED and TIMEOUT name the node (R248). -/
def McDest.toLatch (m : McDest) (d : Dev) (dest : Nat) : Latch :=
  match m.latch with
  | some l => if m.failed = 0x12 || m.failed = 0x13 then { l with status := m.failed, type := 0 } else l
  | none =>
    if m.failed = 0x14 then
      { status := 0x14, type := 0x02, engine := 10, step := 0, node := m.node, w20 := dest % 2 ^ 50 + 2 ^ 50 * m.node.getD 0,
        w28 := 1 + 2 ^ 32 }
    else if m.failed = 0x18 then
      { status := 0x18, type := 0x05, engine := 10, step := 0, node := m.node, w20 := dest % 2 ^ 50 + 2 ^ 50 * m.node.getD 0,
        w28 := 0x18 + 2 ^ 7 * 5, w30 := d.fabricMs }
    else { status := m.failed, type := 0, engine := 0, step := 0 }

/-- MCAST_STORE (R246 to R248). -/
def mcastStore (w : Who) (t : Thread) : RM Res := do
  let sa := t.words.getD 2 0
  let m := t.words.getD 3 0
  let dest := t.words.getD 4 0
  let dcount := bits (t.words.getD 5 0) 0 9
  let group := bit m 0
  let zfill := bit m 1
  let grp := bits m 16 14
  if group && !((← get).d.rd F.PTR_SGRP_MCVALID w.collar = 1 && (← get).d.rd F.PTR_SGRP_MCGROUP w.collar = grp) then
    return { status := 0x12 }
  let s ← readHdr w sa
  if ← stopped then return { status := 0 }
  if !s.srcOk then return formatRes 0x10
  let me := (← get).d.rd F.MAP_NODE_NODE
  let mut ds : List McDest := []
  if group then
    let d := (← get).d
    let nodes := d.groupNodes w.collar
    let self := d.rd F.MAPM_RMASK1_LOCAL grp = 1
    ds := (nodes.filter fun n => n ≠ me || self).map fun n => ({ node := some n } : McDest)
  else
    for i in List.range dcount do
      let v ← readWord w (dest + 8 * i)
      ds := ds ++ [{ tva := v }]
    if ds.any (·.tva % 256 ≠ 0) && !(← stopped) then return formatRes 0x20
  let ((done, n), fell) ← forBlocks w { t with start := 0 } s zfill {} ((ds, 0) : List McDest × Nat) fun (ds, n) b x => do
    if group then return (← mcSend w grp dest b x ds, n + (if x.isSome then 1 else 0))
    else
      let mut out : List McDest := []
      for m in ds do
        let m' ← mcWrite w b (x.getD (List.replicate 256 0)) m
        out := out ++ [m']
      return (out, n + (if x.isSome then 1 else 0))
  let bad := done.filter (·.failed ≠ 0)
  let worst := bad.foldl (fun (b : Option McDest) m => match b with
    | none => some m
    | some x => if mcastRank m.failed < mcastRank x.failed then some m else some x) none
  let ok := done.length - bad.length
  match worst with
  | some m =>
    let l := m.toLatch (← get).d dest
    if l.type = 0 then
      if l.status = 0x10 then stopWith l
      return { status := l.status, ra := ok, rb := n }
    else
      stopWith l
      return { status := l.status, ra := ok, rb := n }
  | none => return fell.res w { status := 0, ra := ok, rb := n }

/-- MCAST_STORE (R247). -/
def execMcastStore (bay thr : Nat) (env : List Reply) (s : State) : Host.Outcome State Fault Refusal :=
  s.run fun c d => d.runOpcode c bay thr 0x08 (fun _ => true) env 0 mcastStore

/-! ### REDUCE_REMOTE -/

/-- The source FMTs an OP and DTYPE take (R250). -/
def reduceFmtOk (op dty fmt : Nat) : Bool :=
  (reduceAop op dty).isSome && (match dty with
    | 0 => fmt = 5
    | 1 => fmt = 7
    | 2 => isFp fmt
    | 3 => fmt = 2
    | _ => fmt = 1)

/-- Contribute the elements of one destination line: a whole-line atomic, or one per element for the last, partial line;
the count of contributions. -/
def contribute (w : Who) (step : Nat) (op dty tva : Nat) (combine : Bool) (xs : List Nat) : RM Nat := do
  let n := dtyBytes dty
  let aop := (reduceAop op dty).getD 0
  let full := 64 / n = xs.length
  if combine then
    match ← addrOf w tva (needAtomic false) with
    | none => return 0
    | some a =>
      let wide (x : Nat) : Nat := if 2 < dty then fp32.encode ((etyFmt dty).decode x) else x
      combAdd w step a op dty (2 ^ xs.length - 1) false fun touched i old => combElem op dty touched old (wide (xs.getD i 0))
      return if full then 1 else xs.length
  else if full then
    let _ ← atomicVa w tva { aop := aop, ety := dty, whole := true, fetch := false, at_ := 0, operand := elemBytes n xs }
    return 1
  else
    for (x, i) in xs.zipIdx do
      let _ ← atomicVa w (tva + n * i) { aop := aop, ety := dty, whole := false, fetch := false, at_ := 0, operand := leBytes n x }
    return xs.length

/-- REDUCE_REMOTE (R249 to R256). -/
def reduceRemote (w : Who) (t : Thread) : RM Res := do
  let sa := t.words.getD 2 0
  let da := t.words.getD 3 0
  let m := t.words.getD 4 0
  let op := bits m 0 3
  let dty := bits m 4 3
  let s ← readHdr w sa
  if ← stopped then return { status := 0 }
  if !s.srcOk then return formatRes 0x10
  if s.qmode ≠ 0 || !reduceFmtOk op dty s.fmt then return formatRes 0x10
  let marks := bit m 7 && (op = 2 || op = 3 || op = 4)
  let n := dtyBytes dty
  let per := 2048 / fmtBits s.fmt
  let lineEl := 64 / n
  let total := s.rows * s.rowlen
  let (sent, fell) ← forBlocks w { t with start := 0 } s marks {} 0 fun sent b x => do
    let mut sent := sent
    let src := elems (fmtBits s.fmt / 8) per (x.getD (List.replicate 256 0))
    let vals := if dty = 2 then src.map fun v => if s.fmt = 0 then v else elemFp32 s.fmt (leBytes 2 v) 0 0 else src
    for k in List.range (per / lineEl) do
      let i := b * per + k * lineEl
      if i < total && !(← stopped) then
        let c ← contribute w t.step op dty (da + i * n) (bit m 8) ((vals.drop (k * lineEl)).take (min lineEl (total - i)))
        sent := sent + c
    return sent
  if bit m 9 && !(← stopped) then flushAll w (some (w.bay, w.thr, t.step)) fun _ s => s.collar = w.collar
  return fell.res w { status := 0, ra := satTo 32 sent, rb := if bit m 8 then 0 else sent }

/-- REDUCE_REMOTE (R250). -/
def execReduceRemote (bay thr : Nat) (env : List Reply) (s : State) : Host.Outcome State Fault Refusal :=
  s.run fun c d => d.runOpcode c bay thr 0x09 (fun _ => true) env 0 reduceRemote

end Sys2Proof.Machine
end

