-- ==== Sys2Proof/Machine/Tier.lean ====
section
/-! DEFINITION. Tiers (spec/10): PROMOTE, DEMOTE and SHADOW, line-cache fills, flash programming, cleaning and garbage
collection, the flash write budget; and what each period of time does to leashes and leaky counters (R409, R482). -/
namespace Sys2Proof.Machine

/-! ### Extents (R343) -/

/-- TVA ranges of a tensor's extent. -/
def THdr.extent (h : THdr) : List (Nat × Nat) :=
  [(h.tva, 64), (h.data, 256 * (if h.layout = 1 then h.dcap else h.blocks))] ++
    (if h.layout = 1 then [(h.map, h.lvl1 + 64 * h.groups - h.map)] else []) ++
    (if h.qmode = 0 then [] else [(h.scale, 8 * h.records)])

/-- The store offset of a TVA on this node, checked against its window and kennel; a fault stops the run, and none is a page
of another node. -/
def placeOf (w : Who) (tva : Nat) : RM (Option Nat) := do
  match ← spot w tva needRead with
  | .at_ off col k win =>
    onDev fun d => d.release { line := off / 64, collar := col, want := .engRead, src := .home, knl := some k, win := win }
    return some off
  | _ => return none

/-- The units that a list of TVA ranges touches, each once, in order; none when a page lies on another node. -/
def unitsOf (w : Who) (rs : List (Nat × Nat)) : RM (Option (List Nat)) := do
  let mut out : List Nat := []
  let mut here := true
  for (a, n) in rs do
    for i in List.range (if n = 0 then 0 else (a + n - 1) / 4096 + 1 - a / 4096) do
      if here && !(← stopped) then
        match ← placeOf w ((a / 4096 + i) * 4096) with
        | some off => if !out.contains (off / 65536) then out := out ++ [off / 65536]
        | none => here := false
  return if here then some out else none

/-- Units as ranges of consecutive ones: first and number. -/
def toRanges : List Nat → List (Nat × Nat)
  | [] => []
  | u :: r => match toRanges r with
    | (v, n) :: q => if v = u + 1 then (u, n + 1) :: q else (u, 1) :: (v, n) :: q
    | [] => [(u, 1)]

/-- The units of ranges. -/
def fromRanges (rs : List (Nat × Nat)) : List Nat := rs.flatMap fun (u, n) => (List.range n).map fun i => u + i

/-- The header a tier opcode names: the header and its store offset with the units of its extent, or the result that ends
the run (R343). -/
def tierHdr (w : Who) (t : Thread) : RM (Except Res (THdr × Nat × List Nat)) := do
  let tva := t.words.getD 2 0
  let h ← readHdr w tva
  if ← stopped then return .error { status := 0 }
  if !h.srcOk then return .error (formatRes 0x10)
  match ← placeOf w tva, ← unitsOf w h.extent with
  | some off, some us => return .ok (h, off, us)
  | _, _ => return .error { status := if ← stopped then 0 else 0x12 }

/-! ### Moving units (R348) -/

/-- Recall every modified copy of a unit's lines with a shared recall, keeping shared copies. -/
def recallShared (c : Cx) (p : Nat → Bool) : RM Unit := do
  for (_, e) in (← get).d.dir do
    if e.owned && p e.line && !(← stopped) then
      let t : Txn := { line := e.line, collar := e.collar, want := .once, src := .home, since := c.tmr }
      if (← get).d.busyTxn t then modify fun r => { r with busy := true }
      else
        let (d, t) := (← get).d.snoopLines c t 1
        onDev fun _ => d
        let _ ← answerSnoops c t.snoops t
        pure ()
  onDev fun d => { d with abuf := d.abuf.filter fun l => !p l }

/-- Is any line of a unit in use, or the unit being filled or programmed? DEDUCED (log 54). -/
def Dev.unitBusy (d : Dev) (u : Nat) : Bool :=
  (d.trackers ++ d.victims ++ d.conflict).any (fun t => t.line / 1024 = u || (t.line + t.n - 1) / 1024 = u) ||
    d.fills.any (fun f => f.page / 16 = u) || d.progs.any (fun p => p.unit = u)

/-- Steps 1 and 2 of a move. -/
def quietUnit (c : Cx) (u : Nat) : RM Unit := do
  if (← get).d.unitBusy u || (← get).d.chFenced c.variant (u * 1024) then modify fun r => { r with busy := true }
  else recallShared c fun l => l / 1024 = u

/-- Frames of each group in the pinned region, and those its pinned units use or that are retired. -/
def Dev.pinCap (d : Dev) (v : Variant) : Nat := d.rd F.TIR_REGION_PINNED * (if v.stacks = 8 then 8192 else 16384)
def Dev.pinUsed (d : Dev) (v : Variant) (g : Nat) : Nat :=
  (d.pins.map fun (u, _) => ((List.range 16).filter fun i => d.groupOf v ((16 * u + i) * 4096) = g).length).sum +
    (d.retired.filter fun r => r / 2 ^ 60 = 3 && r / 2 ^ 40 % 2 ^ 20 = g).length

/-- Does every page of a unit find a free pinned frame in its group? -/
def Dev.pinRoom (d : Dev) (v : Variant) (u : Nat) : Bool :=
  (List.range 16).all fun i =>
    let g := d.groupOf v ((16 * u + i) * 4096)
    decide (d.pinUsed v g + ((List.range 16).filter fun j => d.groupOf v ((16 * u + j) * 4096) = g).length ≤ d.pinCap v)

/-- Steps 3 and 4 of a PROMOTE: the pages leave the line cache with their dirty bits, the old entry becomes FCOPY. -/
def Dev.pinUnit (d : Dev) (u : Nat) : Dev :=
  let fc := match d.unitHome u with
    | some (.flash s cp) => some (s, cp)
    | _ => none
  let dirty := ((d.lc.filter fun w => w.page / 16 = u && w.dirty).map fun w => 2 ^ (w.page % 16)).sum
  { d with lc := d.lc.filter fun w => w.page / 16 ≠ u, fmap := tset d.fmap u .pinned,
           pins := tset d.pins u { fcopy := fc, dirty := dirty } }

/-- Steps 3 and 4 of a DEMOTE of a unit no entry pins any longer: the block, and whether the unit was written. -/
def Dev.unpinUnit (d : Dev) (v : Variant) (u : Nat) (p : PinRec) : Dev × Bool :=
  let (d, new) := if p.dirty = 0 then (d, p.fcopy) else d.programUnit v u p.fcopy
  ({ d with pins := tdel d.pins u,
            fmap := match new with
              | some (s, cp) => tset d.fmap u (.flash s cp)
              | none => tdel d.fmap u }, p.dirty ≠ 0 && new.isSome)

/-- Units pinned in a kennel (TIR_KPIN.USE). -/
def Dev.pinUse (d : Dev) (k : Nat) : Nat := (d.pins.filter fun (u, _) => d.kennelAt (u * 65536) = some k).length

/-- The pinned entry of a key. -/
def Dev.pinEntry (d : Dev) (collar hdr : Nat) : Option (Nat × TensEnt) :=
  d.tens.find? fun (_, e) => !e.shadow && e.collar = collar && e.hdr = hdr

/-- The lowest free entry of the tier tensor table. -/
def Dev.freeTens (d : Dev) : Option Nat := (List.range (d.tens.length + 1)).find? fun i => i < 16384 && (tget d.tens i).isNone

/-- PROMOTE (R346). DEDUCED (log 54). -/
def promote (w : Who) (t : Thread) : RM Res := do
  match ← tierHdr w t with
  | .error r => return r
  | .ok (_, hdr, us) =>
    let d := (← get).d
    match d.pinEntry w.collar hdr, d.freeTens with
    | some (_, { partialPin := false, .. }), _ => return lateRes w { status := 0, rb := 2 ^ 60 }
    | none, none => return { status := 0x15, rb := 2 ^ 61 }
    | old, free =>
      let (n, e) : Nat × TensEnt := match old with
        | some (n, e) => (n, e)
        | none => (free.getD 0, { shadow := false, partialPin := true, collar := w.collar, hdr := hdr, ranges := toRanges us })
      let todo := (fromRanges e.ranges).drop e.units
      let fresh := todo.filter fun u => (tget d.pins u).isNone
      let lacks := fresh.any fun u => match d.kennelAt (u * 65536) with
        | some k => decide (d.rd F.TIR_KPIN_QUOTA k < d.pinUse k + (fresh.filter fun x => d.kennelAt (x * 65536) = some k).length)
        | none => true
      if lacks then return { status := 0x15 }
      let mut copied := 0
      let mut gained := 0
      let mut full := false
      let mut done := e.units
      for u in todo do
        if !full && !(← stopped) then
          match tget (← get).d.pins u with
          | some p =>
            onDev fun d => { d with pins := tset d.pins u { p with pins := p.pins + 1 } }
            gained := gained + 1
            done := done + 1
          | none =>
            if !(← get).d.pinRoom w.c.variant u then full := true
            else
              quietUnit w.c u
              onDev fun d => d.pinUnit u
              copied := copied + 1
              done := done + 1
      onDev fun d => { d with tens := tset d.tens n { e with partialPin := full, units := done } }
      if full then return { status := 0x15, ra := satTo 32 copied, rb := satTo 32 gained + 2 ^ 62 }
      else return lateRes w { status := 0, ra := satTo 32 copied, rb := satTo 32 gained }

/-- PROMOTE (R346, R351). -/
def execPromote (bay thr : Nat) (env : List Reply) (s : State) : Host.Outcome State Fault Refusal :=
  s.run fun c d => d.runOpcode c bay thr 0x20 (fun _ => true) env 0 promote

/-- DEMOTE (R347): a start with no flash write budget left programs nothing (R342). DEDUCED (log 54). -/
def demote (w : Who) (t : Thread) : RM Res := do
  match ← tierHdr w t with
  | .error r => return r
  | .ok (_, hdr, _) =>
    let d := (← get).d
    match d.pinEntry w.collar hdr with
    | none => return lateRes w { status := 0, rb := 2 ^ 62 }
    | some (n, e) =>
      let broke := match d.kennelAt hdr with
        | some k => decide (d.budget k ≤ 0)
        | none => true
      if broke then return { status := 0x15 }
      let mut wrote := 0
      let mut clean := 0
      for u in (fromRanges e.ranges).take e.units do
        if !(← stopped) then
          match tget (← get).d.pins u with
          | none => pure ()
          | some p =>
            if 1 < p.pins then onDev fun d => { d with pins := tset d.pins u { p with pins := p.pins - 1 } }
            else
              quietUnit w.c u
              let p := (tget (← get).d.pins u).getD p
              let (d, written) := (← get).d.unpinUnit w.c.variant u p
              onDev fun _ => d
              if written then wrote := wrote + 1 else clean := clean + 1
      onDev fun d => { d with tens := tdel d.tens n }
      return lateRes w { status := 0, ra := satTo 32 wrote, rb := satTo 32 clean }

/-- DEMOTE (R347, R351). -/
def execDemote (bay thr : Nat) (env : List Reply) (s : State) : Host.Outcome State Fault Refusal :=
  s.run fun c d => d.runOpcode c bay thr 0x21 (fun _ => true) env 0 demote

/-! ### SHADOW -/

/-- Units of shadow space a shadow takes. -/
def TensEnt.shadowUnits (e : TensEnt) : Nat :=
  let recs := if e.qmode = 1 then e.rows else e.rows * e.rowlen / (32 * 2 ^ e.qblk)
  ceilDiv (ceilDiv e.codeBytes 64 * 64 + 8 * recs) 65536

/-- Shadow units charged to a kennel (TIR_KSHD.USE). -/
def Dev.shadowUse (d : Dev) (k : Nat) : Nat := ((d.tens.filter fun (_, e) => e.shadow && e.knl = some k).map fun (_, e) => e.units).sum

/-- The current shadow of a key. -/
def Dev.currentShadow (d : Dev) (collar hdr : Nat) : Option (Nat × TensEnt) :=
  d.tens.find? fun (_, e) => e.shadow && e.collar = collar && e.hdr = hdr && e.ended.isNone

/-- The current shadow of a key is superseded or dropped now. -/
def Dev.endShadow (d : Dev) (n : Nat) (e : TensEnt) : Dev :=
  { d with tens := tset d.tens n { e with ended := some d.seq, endEpoch := d.rd F.EPC_EPOCH_EPOCH } }

/-- May the source have a shadow in SFMT (R349): DENSE, a floating-point FMT or INT8 with a record a row, and SFMT narrower;
the offset of the word in breach. -/
def shadowBad (h : THdr) (sfmt qmode qblk : Nat) : Option Nat :=
  if h.layout ≠ 0 || !(isFp h.fmt || (h.fmt = 3 && h.qmode = 1)) then some 0x10
  else if fmtBits h.fmt ≤ fmtBits sfmt || (sfmt = 4 && h.rowlen % 2 = 1) || (qmode = 2 && h.rowlen % (32 * 2 ^ qblk) ≠ 0) then
    some 0x18
  else none

/-- SHADOW with DROP = 0 (R350): the source's modified copies are recalled, its elements quantised, and the new entry made
current. DEDUCED (log 54). -/
def shadowBuild (w : Who) (t : Thread) : RM Res := do
  let m := t.words.getD 3 0
  let sfmt := bits m 1 3
  let qmode := bits m 4 2
  let qblk := bits m 6 3
  let smode := bits m 9 2
  match ← tierHdr w t with
  | .error r => return r
  | .ok (h, hdr, us) =>
    match shadowBad h sfmt qmode qblk with
    | some off => return formatRes off
    | none =>
      let d := (← get).d
      let knl := d.kennelAt hdr
      let e : TensEnt := { shadow := true, collar := w.collar, hdr := hdr, sfmt := sfmt, qmode := qmode, qblk := qblk, rows := h.rows,
                           rowlen := h.rowlen, knl := knl }
      let n := e.shadowUnits
      let quota := match knl with
        | some k => decide (d.shadowUse k + n ≤ d.rd F.TIR_KSHD_QUOTA k)
        | none => false
      match d.freeTens with
      | none => return { status := 0x15, rb := 2 ^ 61 }
      | some ix =>
        if !quota then return { status := 0x15 }
        recallShared w.c fun l => us.contains (l / 1024)
        let per := if qmode = 1 then h.rowlen else 32 * 2 ^ qblk
        let mut codes : List Nat := []
        let mut recs : List Nat := []
        let mut nans := 0
        for r in List.range h.rows do
          if !(← stopped) then
            let b ← readVa w (h.data + r * h.rowBytes) h.rowBytes
            let rec_ ← if h.qmode = 1 then readWord w (h.scale + 8 * r) else pure 0
            for g in chunks per ((List.range h.rowlen).map fun j => rowElem h.fmt b j rec_) (h.rowlen + 1) do
              let q := quantGroup sfmt smode 0 g
              codes := codes ++ q.codes
              recs := recs ++ [q.record]
              nans := nans + q.nans
        if ← stopped then return { status := 0 }
        let cb := packElems sfmt codes
        let data := takeBytes (ceilDiv e.codeBytes 64 * 64) cb ++ wordBytes recs
        onDev fun d =>
          let d := { d with seq := d.seq + 1 }
          let old := d.currentShadow w.collar hdr
          let d := match old with
            | some (i, x) => d.endShadow i x
            | none => d
          { d with tens := tset d.tens ix { e with units := n, data := data, made := d.seq, epoch := d.rd F.EPC_EPOCH_EPOCH,
                                                   prev := old.map fun (x : Nat × TensEnt) => x.1 } }.sweepShadows
        return lateRes w { status := 0, ra := n, rb := satTo 32 nans }

/-- SHADOW (R349, R350). -/
def execShadow (bay thr : Nat) (env : List Reply) (s : State) : Host.Outcome State Fault Refusal :=
  s.run fun c d => d.runOpcode c bay thr 0x22 (fun ws => !bit (ws.getD 3 0) 0) env 0 shadowBuild

/-- SHADOW with DROP = 1: the current shadow is removed and none built. -/
def shadowDrop (w : Who) (t : Thread) : RM Res := do
  match ← tierHdr w t with
  | .error r => return r
  | .ok (_, hdr, _) =>
    onDev fun d =>
      let d := { d with seq := d.seq + 1 }
      match d.currentShadow w.collar hdr with
      | some (i, x) => (d.endShadow i x).sweepShadows
      | none => d
    return lateRes w { status := 0 }

/-- SHADOW with DROP = 1 (R350). -/
def execShadowDrop (bay thr : Nat) (env : List Reply) (s : State) : Host.Outcome State Fault Refusal :=
  s.run fun c d => d.runOpcode c bay thr 0x22 (fun ws => bit (ws.getD 3 0) 0) env 0 shadowDrop

/-! ### Fills from flash (R337, R479 to R481) -/

/-- The service class of a request's traffic: its ring's, or XCLASS of its function. -/
def Dev.clsOf (d : Dev) (t : Txn) : Nat :=
  match t.src with
  | .thread b th _ => match d.thread b th with
    | some x => d.rd F.RNG_CTL_SERVICE x.ring
    | none => 0
  | _ => d.rd F.FN_CTL_XCLASS t.collar

/-- The leaky-counter resource of the erase block that holds a slot: channel and block. -/
def blockOf (ch slot : Nat) : Nat := ch * 2 ^ 32 + slot / Config.blockSlots

/-- The module of the map that this node is. -/
def Dev.me (d : Dev) : Option ModRec := d.map.modules.find? fun m => m.node = d.rd F.MAP_NODE_NODE

/-- Can a page that is uncorrectable in flash be rebuilt from the pack (R481): the module is in one that `can` recover, and
no undo entry after the last committed heel holds the page? DESIGN CHOICE (log 55). -/
def Dev.packCan (d : Dev) (page : Nat) (can : Bool) : Bool :=
  can && (match d.me with
    | some m => m.pack.isSome
    | none => false) && !(d.undo.any fun u => u.page = page)

/-- A flash error on a fill: retried reads are corrected events; an uncorrectable codeword is rebuilt from the pack and
written to a new slot, or its page's lines are poisoned (R480, R481). DESIGN CHOICE (log 55). -/
def Dev.flashEcc (d : Dev) (c : Cx) (page : Nat) (e : Ecc) (can : Bool) : Dev :=
  let unit := page / 16
  let ch := d.channelOf c.variant (unit * 65536)
  let slot := match d.unitHome unit with
    | some (.flash s _) => s
    | _ => 0
  if !e.uncorr then d.corrected c 6 (blockOf ch slot) 0x14
  else
    let d := d.uncorrectable c 6 (blockOf ch slot) 0x14
    let ok := d.packCan page can
    let d := if ok then d.writeBackUnit c.variant unit
      else (List.range 64).foldl (fun d i => d.poisonLine c (page * 64 + i)) d
    let d := d.hwRecord c 3 0 12 0x14 ch (if ok then 2 else 1) (page * 4096)
    d.fault c.tmr { type := 0x14, cls := 3, engine := 12, w20 := unit + 2 ^ 34 * (page % 16), w28 := if ok then 1 else 0 }

/-- A page fill completes: its codewords leave the channel's queue, and the accesses that waited are served in order
(R337). `can`: the pack can recover one more position. DESIGN CHOICE (log 55). -/
def execLineCacheFillEnd (page : Nat) (ecc : Option Ecc) (can : Bool) (s : State) : Host.Outcome State Fault Refusal :=
  s.run fun c d => match d.fills.find? fun f => f.page = page && !f.reb with
    | none => d
    | some f =>
      let ch := d.channelOf c.variant (page * 4096)
      if d.bitAt F.RAS_FLMASK_FLASH 0 ch then d
      else
        let d := { d with fills := d.fills.filter fun (x : Fill) => x.page ≠ page }.dec F.FLS_QUEUE_QUEUED ch f.cws
        let d := match f.waiting.head? with
          | some t => (d.chargePort (d.stackOf c.variant (page * 4096)) t.collar (d.clsOf t) 4096).chargePort (8 + ch / 8) t.collar
              (d.clsOf t) (4096 * f.cws)
          | none => d
        let d := match ecc with
          | some e => if e.struct = 0x14 then d.flashEcc c page e can else d
          | none => d
        let d := if d.resident page then d else d.allocWay c.variant page
        f.waiting.foldl (fun d t => d.complete c t) d

/-! ### Writing to flash (R334, R335, R338) -/

/-- Start to write a dirty unit to a new slot: its contents of this moment. A unit with no present block is not written and
becomes ZERO at once (R332). -/
def Dev.startProg (d : Dev) (v : Variant) (unit : Nat) : Dev :=
  let data := memSlice d.mem (unit * 65536) 65536
  let p := (d.presentBlocks unit).length
  let ch := d.channelOf v (unit * 65536)
  let clean : Dev := { d with lc := mapIf (fun w => w.page / 16 = unit) (fun w => { w with dirty := false }) d.lc }
  if p = 0 then d.writeBackUnit v unit
  else
    let (s, d) := clean.newSlot ch
    let d := (d.dec F.FLS_SPACE_FREE ch).chargeFlash (unit * 65536) (codewords p)
    { d with progs := d.progs ++ [({ unit := unit, slot := s, comp := decide (p ≤ 240), data := data } : Prog)] }

/-- Every codeword of a unit's new slot is programmed: the map entry is written and the old slot invalid (R334). -/
def Dev.endProg (d : Dev) (v : Variant) (p : Prog) : Dev :=
  let ch := d.channelOf v (p.unit * 65536)
  let old := match d.unitHome p.unit with
    | some (.flash s cp) => some (s, cp)
    | _ => none
  let d := { d with progs := d.progs.filter fun (x : Prog) => x.unit ≠ p.unit,
                    flash := memRestore d.flash (p.unit * 65536) 65536 p.data,
                    bmCache := d.bmCache.filter (· ≠ p.unit),
                    wseq := tset d.wseq ch ((tget d.wseq ch).getD 0 + 1),
                    fmap := tset d.fmap p.unit (.flash p.slot p.comp) }
  (d.dropSlot ch old).bump F.FLS_SPACE_VALID ch

/-- A unit is programmed; or the block failed: it is retired and counted, and the unit goes to another slot (R335). -/
def execFlashProgramEnd (unit : Nat) (ok : Bool) (s : State) : Host.Outcome State Fault Refusal :=
  s.run fun c d => match d.progs.find? (·.unit = unit) with
    | none => d
    | some p =>
      let ch := d.channelOf c.variant (unit * 65536)
      if d.bitAt F.RAS_FLMASK_FLASH 0 ch then d
      else if ok then d.endProg c.variant p
      else
        let (s, d) := (d.inc F.FLS_SPACE_BAD ch).newSlot ch
        { d.dec F.FLS_SPACE_FREE ch with
          progs := mapIf (fun x => x.unit = unit) (fun (x : Prog) => { x with slot := s }) d.progs }

/-- TIR_CTL.DIRTY_HI in percent: values outside 10 to 90 act as 50. -/
def Dev.dirtyHi (d : Dev) : Nat := let v := d.rd F.TIR_CTL_DIRTY_HI; if 10 ≤ v && v ≤ 90 then v else 50

/-- Line-cache frames of the module. -/
def Dev.lcTotal (d : Dev) (v : Variant) : Nat := d.lcFrames v * (if v.stacks = 8 then 32 else 16)

/-- Write-backs of dirty units, least recently used first, until the dirty frames are at most `goal` (R338). -/
def Dev.cleanTo (d : Dev) (v : Variant) (goal : Nat) : Nat → Dev
  | 0 => d
  | k + 1 =>
    if (d.lc.filter (·.dirty)).length ≤ goal then d
    else match d.lc.find? fun w => w.dirty && !d.progs.any (fun p => p.unit = w.page / 16) with
      | some w => Dev.cleanTo (d.startProg v (w.page / 16)) v goal k
      | none => d

/-- Dirty frames above DIRTY_HI percent start write-backs until they fall 5 points below (R338). -/
def execDirtyWriteback (s : State) : Host.Outcome State Fault Refusal :=
  s.run fun c d =>
    let all := d.lcTotal c.variant
    if 100 * (d.lc.filter (·.dirty)).length ≤ d.dirtyHi * all then d
    else d.cleanTo c.variant ((d.dirtyHi - 5) * all / 100) d.lc.length

/-- The slot of a unit in flash, pinned or not. -/
def Dev.slotOf (d : Dev) (unit : Nat) : Option Nat :=
  match d.unitHome unit, tget d.pins unit with
  | some (.flash s _), _ => some s
  | some .pinned, some p => p.fcopy.map (·.1)
  | _, _ => none

/-- Mapped units of a channel with their slots. -/
def Dev.mapped (d : Dev) (v : Variant) (ch : Nat) : List (Nat × Nat) :=
  d.fmap.filterMap fun (u, _) =>
    if d.channelOf v (u * 65536) = ch then (d.slotOf u).map fun s => (u, s) else none

/-- A unit's slot is moved within its channel: a garbage collection's relocation, charged to nobody. -/
def Dev.relocate (d : Dev) (ch unit : Nat) : Dev :=
  let (s, d) := d.newSlot ch
  let d := { d.dec F.FLS_SPACE_FREE ch with wseq := tset d.wseq ch ((tget d.wseq ch).getD 0 + 1) }
  match d.unitHome unit, tget d.pins unit with
  | some (.flash _ cp), _ => { d with fmap := tset d.fmap unit (.flash s cp) }
  | some .pinned, some p => { d with pins := tset d.pins unit { p with fcopy := p.fcopy.map fun (_, cp) => (s, cp) } }
  | _, _ => d

/-- A channel whose free slots are below 4 % of its raw slots takes the erase block with the fewest valid slots, moves those
and erases the block; a block that fails to erase is retired (R335). -/
def execGarbageCollection (ch : Nat) (ok : Bool) (s : State) : Host.Outcome State Fault Refusal :=
  s.run fun c d =>
    let stale := (tget d.stale ch).getD []
    let blk (x : Nat) : Nat := x / Config.blockSlots
    let mine := d.mapped c.variant ch
    let valid (b : Nat) : List (Nat × Nat) := mine.filter fun (_, x) => blk x = b
    let busy (b : Nat) : Bool := d.progs.any fun p => d.channelOf c.variant (p.unit * 65536) = ch && blk p.slot = b
    let best := (((stale.map blk).eraseDups).filter fun b => !busy b).foldl (fun (m : Option Nat) b => match m with
      | none => some b
      | some x => if (valid b).length < (valid x).length || ((valid b).length = (valid x).length && b < x) then some b
          else some x) none
    if rawSlots * 4 ≤ 100 * d.rd F.FLS_SPACE_FREE ch || c.variant.channels ≤ ch || d.bitAt F.RAS_FLMASK_FLASH 0 ch then d
    else match best with
      | none => d
      | some b =>
        let moved := valid b
        let d := moved.foldl (fun d (u, _) => d.relocate ch u) d
        let back := (stale ++ moved.map (·.2)).filter fun x => blk x = b
        let d := { d with stale := tput [] d.stale ch (((tget d.stale ch).getD []).filter fun x => blk x ≠ b) }
        if ok then
          ({ d with erased := tset d.erased ch ((tget d.erased ch).getD [] ++ back),
                    erases := tset d.erases (ch * 2 ^ 32 + b) ((tget d.erases (ch * 2 ^ 32 + b)).getD 0 + 1) }).bump
            F.FLS_SPACE_FREE ch back.length
        else d.inc F.FLS_SPACE_BAD ch

/-! ### Periods of time -/

/-- Every millisecond each kennel's flash budget gains RATE / 1,000 codewords, the fraction kept, never above BURST
(R342). DEDUCED (log 53). -/
def execFlashBudgetAccrual (s : State) : Host.Outcome State Fault Refusal :=
  s.run fun _ d => (d.instances F.TIR_KFRATE_RATE).foldl (fun d k =>
    let burst : Int := d.rd F.TIR_KFRATE_BURST k
    let x := (tget d.budFrac k).getD 0 + d.rd F.TIR_KFRATE_RATE k
    let b := d.budget k
    if burst ≤ b then d
    else
      let d := { d with budFrac := tput 0 d.budFrac k (if burst ≤ b + x / 1000 then 0 else x % 1000) }
      d.wr F.TIR_KFBAL_BALANCE k (ofSigned 64 (min burst (b + x / 1000)))) d

/-- Every microsecond each leash accrues, rings show or lose LEASH, and what tokens now allow is granted (R409, R413). DEDUCED (log 53). -/
def execLeashAccrual (s : State) : Host.Outcome State Fault Refusal :=
  s.run fun c d => ((((d.accrueAll lshFn).accrueAll lshService).accrueAll lshPort).leashHolds).grantHeld c

/-- Every leak period of a kind each of its counters above 0 falls by 1; one that reaches 0 is freed (R482, R484). DEDUCED (log 53). -/
def execLeakPeriod (kind : Nat) (s : State) : Host.Outcome State Fault Refusal :=
  s.run fun _ d => { d with leaks := d.leaks.filterMap fun (l : Leak) =>
    if l.kind ≠ kind then some l else if l.c ≤ 1 then none else some { l with c := l.c - 1 } }

end Sys2Proof.Machine
end

