-- ==== Sys2Proof/Machine/Heel.lean ====
section
/-! DEFINITION. Heels, rollbacks, handed objects and rebuild (spec/11): rows BEACON to REBUILD_RANGE_END. The leader's
messages to itself come back to it as commands, as those to any member do. -/
namespace Sys2Proof.Machine

/-! ### Groups and packs of the map (R358, R374, R383) -/

/-- The leader a list of members has: the present one with the lowest node. -/
def lowest (l : List Nat) : Option Nat := l.foldl (fun (x : Option Nat) n => match x with
  | none => some n
  | some m => some (min m n)) none

/-- The object of a rebuild range: GiB, position, pack. DEDUCED (log 64). -/
def rangeObj (g pos pack : Nat) : Nat := g + 2 ^ 17 * pos + 2 ^ 21 * (pack % 2048)

/-- The leader hands a range to a replacement, or keeps it while a heel or a rollback is to run (R386). DEDUCED (log 64). -/
def Dev.giveRange (d : Dev) (c : Cx) (obj node : Nat) : Dev :=
  if d.heelAsked || d.heelLead.isSome || d.rollLead.isSome || d.shipE.isSome then
    { d with rebKept := d.rebKept ++ [(obj, node)] }
  else { d with rebOut := sadd d.rebOut obj }.offer c 3 obj node

/-- The leader hands out the ranges it kept. -/
def Dev.giveKept (d : Dev) (c : Cx) : Dev :=
  d.rebKept.foldl (fun d (o, n) => { d with rebOut := sadd d.rebOut o }.offer c 3 o n) { d with rebKept := [] }

/-- The leader starts the rebuild of each replacement of its group that has no range out. -/
def Dev.startRebuilds (d : Dev) (c : Cx) : Dev :=
  if d.rd F.EPC_STAT_LEADER = 0 then d
  else (d.map.modules.filter fun m => m.rebuilding && d.grpNodes.contains m.node).foldl (fun d m =>
    let mine (o : Nat) : Bool := bits o 17 4 = m.pos && bits o 21 11 = m.pack.getD 0 % 2048
    if d.rebOut.any mine || d.rebKept.any fun (o, _) => mine o then d
    else d.giveRange c (rangeObj (planGiB (m.k + 2) m.pos c.variant.storeGiB 0) m.pos (m.pack.getD 0)) m.node) d

/-- The pack registers from the map (R383, R391): a position is lost while the map says so or its replacement rebuilds. A
third lost position is reported to the keepers (R387). -/
def Dev.applyPack (d : Dev) (c : Cx) (m : ModRec) : Dev :=
  match m.pack with
  | none =>
    let d := (((d.wr F.PAK_CFG_PACK 0 0).wr F.PAK_CFG_K 0 0).wr F.PAK_CFG_POS 0 0).wr F.PAK_CFG_VALID 0 0
    let d := (List.range 16).foldl (fun d p => ((d.wr F.PAK_MEMB_NODE p 0).wr F.PAK_MEMB_PV p 0).wr F.PAK_MEMB_LOST p 0) d
    let d := (((d.wr F.PAK_STAT_LOST_A 0 0).wr F.PAK_STAT_LOST_AV 0 0).wr F.PAK_STAT_LOST_B 0 0).wr F.PAK_STAT_LOST_BV 0 0
    (d.wr F.PAK_STAT_STATE 0 0).wr F.PAK_RBLD_ACTIVE 0 0
  | some pk =>
    let rebuilt := m.rebuilding && d.rd F.PAK_RBLD_DONE = c.variant.storeGiB
    let fresh := m.rebuilding && !rebuilt && d.rd F.PAK_RBLD_ACTIVE = 0
    let at_ (p : Nat) : Option ModRec := d.map.modules.find? fun x => x.pack = some pk && x.pos = p
    let gone (p : Nat) : Bool := match at_ p with
      | some x => x.lost || (x.rebuilding && !(rebuilt && p = m.pos))
      | none => true
    let lost := (List.range (m.k + 2)).filter gone
    let st := if lost.isEmpty then 1 else if 2 < lost.length then 4
      else if lost.any fun p => (at_ p).any fun x => x.rebuilding then 3 else 2
    let failed := st = 4 && d.rd F.PAK_STAT_STATE ≠ 4
    let d := (((d.wr F.PAK_CFG_PACK 0 pk).wr F.PAK_CFG_K 0 m.k).wr F.PAK_CFG_POS 0 m.pos).wr F.PAK_CFG_VALID 0 1
    let d := (List.range 16).foldl (fun d p =>
      let pv := decide (p < m.k + 2)
      ((d.wr F.PAK_MEMB_NODE p (if pv then ((at_ p).map fun x => x.node).getD 0 else 0)).wr F.PAK_MEMB_PV p
        (if pv then 1 else 0)).wr F.PAK_MEMB_LOST p (if lost.contains p then 1 else 0)) d
    let d := (d.wr F.PAK_STAT_STATE 0 st).wr F.PAK_STAT_LOST_A 0 (lost.getD 0 0)
    let d := (d.wr F.PAK_STAT_LOST_AV 0 (min 1 lost.length)).wr F.PAK_STAT_LOST_B 0 (lost.getD 1 0)
    let d := d.wr F.PAK_STAT_LOST_BV 0 (if 2 ≤ lost.length then 1 else 0)
    let d := if fresh then
        ((({ d with rebPages := [], rebGot := [], rebMine := none }.wr F.PAK_RBLD_ACTIVE 0 1).wr F.PAK_RBLD_DONE 0 0).wr
          F.PAK_RBLD_RANGE 0 (planGiB (m.k + 2) m.pos c.variant.storeGiB 0))
      else if m.rebuilding then d else d.wr F.PAK_RBLD_ACTIVE 0 0
    if failed then d.propose (.packFailed (lost.filterMap fun p => (at_ p).map fun x => x.node)) else d

/-- The map's heel group and pack take effect (R69, R358). A group a module joins starts it at epoch 1, the group's first,
until a beacon tells it the epoch in force; a leader the map replaces hands the leadership over (R388). DEDUCED (log 61). -/
def Dev.applyGroup (d : Dev) (c : Cx) : Dev :=
  let me := d.rd F.MAP_NODE_NODE
  let d := { d with groupDue := false }
  match d.map.modules.find? fun m => m.node = me with
  | none => d
  | some m => match m.group with
    | none =>
      let d := { d with grpNodes := [], undo := [], shipE := none, synced := false, heelAsked := false, heelLead := none,
                        beats := [], missed := [] }
      let d := ((d.wr F.EPC_EPOCH_EPOCH 0 0).wr F.EPC_STAT_INGROUP 0 0).wr F.EPC_STAT_LEADER 0 0
      (d.wr F.EPC_STAT_LEADER_NODE 0 0).applyPack c { m with pack := none }
    | some g =>
      let joined := !d.inGroup
      let old := d.rd F.EPC_STAT_LEADER_NODE
      let d := { d with grpNodes := (d.map.modules.filter fun (x : ModRec) => x.group = some g).foldl (fun l (x : ModRec) => sadd l x.node) [] }
      let led := d.rd F.EPC_STAT_LEADER = 1
      let lead := (lowest d.present).getD me
      let d := (d.wr F.EPC_STAT_INGROUP 0 1).wr F.EPC_STAT_LEADER_NODE 0 lead
      let d := if joined then
          { d with synced := false, epochSeen := max d.epochSeen 1, beatAt := c.tmr,
                   beats := d.grpNodes.map fun n => (n, c.tmr), missed := [] }.wr F.EPC_EPOCH_EPOCH 0 1
        else d
      let d := if led && lead ≠ me then (d.wr F.EPC_STAT_LEADER 0 0).offer c 2 (g % 2 ^ 32) lead
        else if lead = me && !led && (joined || !d.present.contains old || old = me) then d.wr F.EPC_STAT_LEADER 0 1
        else d
      (d.applyPack c m).startRebuilds c

/-! ### Beacons (R379) -/

/-- Send a beacon. -/
def Dev.beacon (d : Dev) (dst : Nat) : Dev :=
  d.emit (.msg { mtype := 0x38, dst := dst, src := d.rd F.MAP_NODE_NODE,
                 param := d.rd F.EPC_EPOCH_EPOCH + 2 ^ 64 * d.rd F.EPC_LAST_LAST })

/-- BEACON: the sender's epoch is noted. A module that has just joined takes over a later epoch of its group. -/
def execBeacon (src epoch last : Nat) (s : State) : Host.Outcome State Fault Refusal :=
  s.run fun c d =>
    if !d.inGroup || !d.grpNodes.contains src then d
    else
      let d := { d with beats := tset d.beats src c.tmr, missed := tdel d.missed src, epochSeen := max d.epochSeen epoch }
      if d.synced then d
      else
        let d := { d with synced := true }
        if d.rd F.EPC_EPOCH_EPOCH < epoch then (d.wr F.EPC_EPOCH_EPOCH 0 epoch).wr F.EPC_LAST_LAST 0 last else d

/-- Ten beacons in a row of a node are missed: the leader starts a rollback; when the leader is silent the next present
member in node order leads (R379). -/
def Dev.beaconMiss (d : Dev) (n : Nat) : Dev :=
  let me := d.rd F.MAP_NODE_NODE
  if d.rd F.EPC_STAT_LEADER = 1 then d.leadRollback 2
  else
    let others := d.present.filter (· ≠ n)
    let next := ((others.find? fun x => n < x).orElse fun _ => others.head?).getD me
    let d := d.wr F.EPC_STAT_LEADER_NODE 0 next
    if next = me then (d.wr F.EPC_STAT_LEADER 0 1).leadRollback 2 else d

/-- The 1 ms timer (R379): a beacon to each partner, and a miss for each that has sent none since the last one. -/
def execBeaconTimer (s : State) : Host.Outcome State Fault Refusal :=
  s.run fun c d =>
    if !d.inGroup || c.tmr < d.beatAt + 100000 || d.lostFor ≠ 0 || d.rd F.RAS_STAT_MSTATE = 1 then d
    else
      let me := d.rd F.MAP_NODE_NODE
      let partners := if d.rd F.EPC_STAT_LEADER = 1 then d.present.filter (· ≠ me) else [d.rd F.EPC_STAT_LEADER_NODE]
      let since := d.beatAt
      let d := partners.foldl (fun d n => d.beacon n) { d with beatAt := c.tmr }
      partners.foldl (fun d n =>
        if since ≤ (tget d.beats n).getD 0 then { d with missed := tdel d.missed n }
        else
          let k := (tget d.missed n).getD 0 + 1
          let d := { d with missed := tset d.missed n k }
          if k = 10 then d.beaconMiss n else d) d

/-- EPC_CFG.LOSS_TIME in milliseconds: below 5,000 acts as 5,000. -/
def Dev.lossMs (d : Dev) : Nat := max 5000 (d.rd F.EPC_CFG_LOSS_TIME)

/-- A member silent for LOSS_TIME: the leader proposes its removal (R382). -/
def execMemberLossTime (node : Nat) (s : State) : Host.Outcome State Fault Refusal :=
  s.run fun c d =>
    if d.rd F.EPC_STAT_LEADER = 0 || !d.present.contains node || node = d.rd F.MAP_NODE_NODE ||
        c.tmr < (tget d.beats node).getD 0 + d.lossMs * 100000 then d
    else d.propose (.lost node)

/-! ### The heel (R364 to R368) -/

/-- Step 1 (R364, R366): the leader sends DRAIN(E) once the heel before is committed and no rebuild range runs. DEDUCED (log 62). -/
def execHeelStart (s : State) : Host.Outcome State Fault Refusal :=
  s.run fun c d =>
    if d.rd F.EPC_STAT_LEADER = 0 || !d.heelAsked || d.heelLead.isSome || d.shipE.isSome || d.rollLead.isSome ||
        d.rd F.EPC_EPOCH_WAIT = 1 || !d.rebOut.isEmpty then d
    else
      let e := d.rd F.EPC_EPOCH_EPOCH
      ({ d with heelAsked := false, heelLead := some { e := e, since := c.tmr } }).heelAll 0 e 0 0

/-- Is a heel message about the epoch in force? A module in no group runs the steps locally, with E = 0 (R361). -/
def Dev.heelFor (d : Dev) (e : Nat) : Bool := e = d.rd F.EPC_EPOCH_EPOCH

/-- Step 2: the heel transition starts, and every ring holds HEEL. DEDUCED (log 62). -/
def execHeelDrain (_src e : Nat) (s : State) : Host.Outcome State Fault Refusal :=
  s.run fun c d =>
    if !d.heelFor e || d.heelStep ≠ 0 || d.running.any (fun r => r.tr = .heel) then d
    else
      let d := if d.inGroup then d.want .heel else d
      if d.canStart .heel then
        { (d.begin c .heel).wr F.EPC_STAT_PHASE 0 1 with heelHold := true, heelStep := 1 }
      else d

/-- Is a descriptor not waited for by a heel's drain? -/
def Job.heelIdle (j : Job) : Bool := match j.place with
  | .parked _ _ _ => true
  | .ended _ => false
  | _ => opOf j.words = 0x30

/-- Report a step to the leader. -/
def Dev.reportStep (d : Dev) (sub : Nat) : Dev :=
  if d.inGroup then d.heelMsg sub (d.rd F.EPC_EPOCH_EPOCH) 0 0 (d.rd F.EPC_STAT_LEADER_NODE) else d

/-- Steps 3 and 4: every descriptor has completed, and the segments are flushed. -/
def execMemberDrainEnd (env : List Reply) (s : State) : Host.Outcome State Fault Refusal :=
  s.run fun c d =>
    if !d.runs .heel || d.heelStep ≠ 1 || !(d.jobs.all fun j => j.heelIdle) then d
    else match d.flushSegs c 0 env fun _ => true with
      | none => d
      | some d => { d.reportStep 1 with heelStep := 2 }

/-- The leader notes that a member has reached step k of the heel; true when every present member has. -/
def Dev.reported (d : Dev) (src e k : Nat) : Dev × Bool :=
  match d.heelLead with
  | none => (d, false)
  | some h =>
    if h.e ≠ e || h.step ≠ k then (d, false)
    else
      let h := { h with got := sadd h.got src }
      ({ d with heelLead := some h }, d.present.all fun n => h.got.contains n)

/-- The leader enters a step. -/
def Dev.leadStep (d : Dev) (c : Cx) (k : Nat) : Dev :=
  { d with heelLead := d.heelLead.map fun (h : HeelLead) => { h with step := k, since := c.tmr, got := [] } }

/-- Step 5: every member has reported DRAINED; HOLD(E). -/
def execHeelDrained (src e : Nat) (s : State) : Host.Outcome State Fault Refusal :=
  s.run fun c d =>
    let (d, all) := d.reported src e 1
    if all then (d.leadStep c 2).heelAll 2 e 0 0 else d

/-- Transactions at the homes that may still write or make an owner. -/
def Dev.heelBusy (d : Dev) : Bool :=
  (d.trackers ++ d.conflict ++ d.fills.flatMap (fun f => f.waiting)).any fun t =>
    t.want.writes || t.want.owning || t.want = .recall

/-- Recall every modified line, each owner keeping a shared copy (R36, step 7). -/
def Dev.recallOwned (d : Dev) (c : Cx) : Dev :=
  ((d.dir.filter fun (_, e) => e.owned).map fun (_, e) => (e.line, e.collar)).foldl (fun d (l, col) =>
    d.takeIn c { line := l, collar := col, want := .recall, src := .home, since := c.tmr }) { d with abuf := [] }

/-- The run that copies a descriptor's rows again. -/
def Dev.migrant (d : Dev) (c : Cx) (j : Job) (bay : Nat) : Who :=
  { c := c, bay := bay, thr := 0, collar := d.ringFn j.ring, cls := d.rd F.RNG_CTL_SERVICE j.ring }

/-- Steps 1 to 4 of the migration commit for one descriptor (R288): rows written since their copy, and released rows, are
copied again; redirects come into force or are freed; the copies of source rows are invalidated; watches are disarmed. DEDUCED (log 58). -/
def commitOne (c : Cx) (j : Job) (bay skipped : Nat) (late : Bool) : RM Unit := do
  let w := (← get).d.migrant c j bay
  let mine := (← get).d.redir.filter fun (_, r) => r.pending && r.ring = j.ring && r.idx = j.idx
  let mut again := 0
  for x in mine do
    let r := x.2
    if (r.pmode = 0 && r.dirty) || r.pmode = 1 then
      let h ← readHdr w r.stable
      let g ← readHdr w r.dtable
      let src : RowAt := { hdr := h.tva, data := h.data, scale := h.scale, row := r.srow }
      let dst : RowAt := { hdr := g.tva, data := g.data, scale := g.scale, row := r.drow }
      if r.pmode = 0 then copyRow w h src dst else copyRow w h dst src
      again := again + 1
  match (← get).stop with
  | some l =>
    modify fun r => { r with stop := none }
    onDev fun d => (d.cancelRedir fun r => r.ring = j.ring && r.idx = j.idx).updJob j.ring j.idx fun j =>
      { j with commit := some { status := l.status, rb := satTo 32 skipped } }
    onDev fun d => d.askRollback c 5
  | none =>
    for x in mine do
      let on : Redir := { x.2 with valid := true, pending := false, dirty := false, watch := [] }
      onDev fun d => { d with redir := if x.2.pmode = 0 then tset d.redir x.1 on else tdel d.redir x.1 }
      if x.2.pmode = 0 then
        for l in x.2.watch do
          if ((← get).d.ent l).isSome then recallLine c l
    let n := again
    onDev fun d => ((d.inc F.RTV_COMMIT_COMMITTED 0 mine.length).inc F.RTV_COMMIT_RECOPIED 0 n).updJob j.ring j.idx fun j =>
      { j with commit := some { status := if late then 3 else 0, ra := satTo 32 mine.length,
                                rb := satTo 32 skipped + 2 ^ 32 * satTo 16 n, bay := some bay } }

/-- Commit every migration that waits for it; none when a line it needs is busy. -/
def Dev.commitMigrations (d : Dev) (c : Cx) (env : List Reply) : Option Dev :=
  let go : RM Unit := d.jobs.forM fun j => match j.place, j.commit with
    | .parked b k late, none => commitOne c j b k late
    | _, _ => pure ()
  let (_, r) := go.run { d := d, env := env }
  if r.busy then none else some r.d

/-- Are the recalls and the migration commit done? -/
def Dev.heldDone (d : Dev) : Bool :=
  !d.heelBusy && !(d.dir.any fun (_, e) => e.owned) && d.jobs.all fun j => match j.place with
    | .parked _ _ _ => j.commit.isSome
    | _ => true

/-- Steps 6 to 8: homes hold back writes and grants of ownership, modified lines are recalled, and migrations commit once
the homes are current. DEDUCED (log 61). -/
def execHeelHold (_src e : Nat) (env : List Reply) (s : State) : Host.Outcome State Fault Refusal :=
  s.run fun c d =>
    if !d.heelFor e || !d.runs .heel || d.heelStep ≠ 2 then d
    else
      let d := { d with hold := 1, heelStep := 3 }.wr F.EPC_STAT_PHASE 0 2
      let d := { d with held := d.held ++ d.conflict.filter d.holdsBack, conflict := d.conflict.filter fun t => !d.holdsBack t }
      let d := d.recallOwned c
      if d.heelBusy || d.dir.any (fun (_, e) => e.owned) then d else (d.commitMigrations c env).getD d

/-- HELD: owners that requests in progress at HOLD still made are recalled, and what waits commits (R364, step 8). DEDUCED (log 62). -/
def execMemberHoldEnd (env : List Reply) (s : State) : Host.Outcome State Fault Refusal :=
  s.run fun c d =>
    if !d.runs .heel || d.heelStep ≠ 3 || d.heelBusy then d
    else if d.dir.any (fun (_, e) => e.owned) then d.recallOwned c
    else
      let d := (d.commitMigrations c env).getD d
      if d.heldDone && d.heelStep = 3 then { d.reportStep 3 with heelStep := 4 } else d

/-- Step 9: every member has reported HELD; CUT(E, F) with F one above the highest number used (R359). -/
def execHeelHeld (src e : Nat) (s : State) : Host.Outcome State Fault Refusal :=
  s.run fun c d =>
    let (d, all) := d.reported src e 2
    if all then
      let f := max d.epochSeen e + 1
      let d := d.leadStep c 3
      { d with epochSeen := f, heelLead := d.heelLead.map fun (h : HeelLead) => { h with f := f } }.heelAll 4 e f 0
    else d

/-- The heel hold limit H in ticks (R365): 20 ms, or 40 % of RAS_TMO.FABRIC. DEDUCED (log 62). -/
def Dev.holdLimit (d : Dev) : Nat := min 2000000 (d.fabricMs * 40000)

/-- No CUT within H of HOLD: ABORT(E); 1 ms later HOLD(E) again (R365). -/
def execHeelHoldLimit (s : State) : Host.Outcome State Fault Refusal :=
  s.run fun c d => match d.heelLead with
    | none => d
    | some h =>
      if h.step = 2 && h.since + d.holdLimit ≤ c.tmr then (d.leadStep c 5).heelAll 7 h.e 0 0
      else if h.step = 5 && h.since + 100000 ≤ c.tmr then (d.leadStep c 2).heelAll 2 h.e 0 0
      else d

/-- The homes hold nothing back any more: the requests held are admitted, in order. -/
def Dev.unhold (d : Dev) (c : Cx) : Dev :=
  let held := d.held
  held.foldl (fun d t => d.takeIn c t) { d with hold := 0, held := [] }

/-- ABORT(E): the held requests go on and the epoch stays; migrations that committed stay committed (R365). -/
def execHeelAbort (_src e : Nat) (s : State) : Host.Outcome State Fault Refusal :=
  s.run fun c d =>
    if !d.heelFor e || !d.runs .heel || !(d.heelStep = 3 || d.heelStep = 4) then d
    else { (d.unhold c).wr F.EPC_STAT_PHASE 0 1 with heelStep := 2 }

/-- The epoch a HEEL descriptor is to end (R362). -/
def Job.heelTarget (j : Job) : Nat := let x := bits (j.words.getD 2 0) 0 48; if x = 0 then j.epoch else x

/-- The HEEL descriptors in progress that pass complete. -/
def Dev.endHeels (d : Dev) (p : Job → Bool) (r : Res) : Dev :=
  let end_ (j : Job) : Job := { j with place := .ended r }
  { d with jobs := mapIf (fun (j : Job) => opOf j.words = 0x30 && j.place = Place.control && p j) end_ d.jobs }

/-- The deltas of one page of the epoch that ended (R377), from its contents at the cut `d0`: a message for each block it
changed and each holder that is there. -/
def Dev.shipPage (d0 d : Dev) (c : Cx) (e : Nat) (u : Undo) : Dev :=
  let n := d.packN
  let g := u.page / 262144
  let i := dataIdx n g (d.rd F.PAK_CFG_POS)
  let nodes := ([holderP n g, holderQ n g].map fun p => d.rd F.PAK_MEMB_NODE p).filter fun x =>
    !(d.map.modules.any fun m => m.node = x && m.lost)
  let old := memRestore [] 0 4096 u.pre
  (List.range 16).foldl (fun d b =>
    let delta := xorBytes (d0.bytes (u.page * 4096 + 256 * b) 256) ((List.range 256).map fun j => (tget old (256 * b + j)).getD 0)
    if delta.all fun x => x = 0 then d.inc F.PAK_DELTA_SKIPPED 0
    else nodes.foldl (fun d x =>
      (d.request c.tmr 0x40 x (u.page * 4096 + 256 * b) (e + 2 ^ 48 * i) delta .delta).inc F.PAK_DELTA_SENT 0) d) d

/-- Step 10: epoch F is in force at every home at once, held requests belong to F, the engines are in the state of R367,
committed migrations complete, and the heel transition ends; then step 11 forms and ships the deltas. A pre-image that is
lost (pages in `lost`) makes the member ask for a rollback instead (R481). A module in no group completes its HEELs here
(R361). -/
def execHeelCut (_src e f : Nat) (lost : List Nat) (s : State) : Host.Outcome State Fault Refusal :=
  s.run fun c d =>
    if !d.heelFor e || !d.runs .heel || d.heelStep ≠ 4 then d
    else
      let inGroup := d.inGroup
      let f := if inGroup then f else 0
      let d := { d.wr F.EPC_EPOCH_EPOCH 0 f with epochSeen := max d.epochSeen f }
      let d := { d with sketch := [], pq := [], coal := [], scratch := [], epochPrev := d.epochFirst, epochFirst := [],
                        walks := d.walks.filter (fun (w : Walk) => w.demand || w.started),
                        redirFlash := d.redir.filter (fun (_, r) => r.valid), heelHold := false }.sweepShadows
      let d := { d with jobs := d.jobs.map fun (j : Job) => match j.place, j.commit with
        | .parked _ _ _, some r => { j with place := .ended r }
        | _, _ => j }
      let d0 := d
      let d := (d.unhold c).finish .heel
      if inGroup then
        let d := { d with heelStep := 5, shipE := some e }.wr F.EPC_STAT_PHASE 0 3
        let mine := d.undo.filter fun u => u.epoch = e && !u.parity
        let bad (u : Undo) : Bool := u.lost || lost.contains u.page
        let d := if mine.any bad then { d with undo := mapIf (fun u => u.epoch = e && bad u) (fun u => { u with lost := true }) d.undo }.askRollback c 5
          else if d.rd F.PAK_CFG_VALID = 1 then mine.foldl (fun d u => d0.shipPage d c e u) d
          else d
        if d.jobs.any (fun (j : Job) => opOf j.words = 0x30 && j.place = .control && j.heelTarget = f) then d.askHeel c else d
      else
        let d := { d with heelStep := 0, epochPrev := [] }.wr F.EPC_STAT_PHASE 0 0
        d.endHeels (fun _ => true) { status := 0 }

/-- Every delta of E has its response: SHIPPED (R364, step 11). -/
def execMemberShipEnd (s : State) : Host.Outcome State Fault Refusal :=
  s.run fun _ d => match d.shipE with
    | none => d
    | some e =>
      if d.heelStep ≠ 5 || d.reqs.any (fun r => r.purpose = .delta) || d.undo.any (fun u => u.lost) then d
      else { d.heelMsg 5 e 0 0 (d.rd F.EPC_STAT_LEADER_NODE) with heelStep := 6 }

/-- Step 12: every member has reported SHIPPED; the heel record goes to the keepers. -/
def execHeelShipped (src e : Nat) (s : State) : Host.Outcome State Fault Refusal :=
  s.run fun c d =>
    let (d, all) := d.reported src e 3
    match all, d.heelLead with
    | true, some h =>
      let g := ((d.map.modules.find? fun m => m.node = d.rd F.MAP_NODE_NODE).bind fun m => m.group).getD 0
      (d.leadStep c 4).propose (.heel g e h.f)
    | _, _ => d

/-- Step 14: the undo of E is discarded, E is the last committed heel, and the HEELs of E complete. A change of group or pack
the map recorded takes effect now, when the heel is over (R69). DEDUCED (log 61). -/
def Dev.heelDone (d : Dev) (c : Cx) (e : Nat) : Dev :=
  if d.shipE ≠ some e then d
  else
    let d := { d with undo := d.undo.filter (fun u => e < u.epoch), shipE := none, epochPrev := [], heelStep := 0, synced := true,
                      heelLead := d.heelLead.filter (fun h => h.e ≠ e) }
    let d := d.endHeels (fun j => decide (j.heelTarget ≤ e)) { status := 0, rb := e }
    let d := ((d.wr F.EPC_LAST_LAST 0 e).inc F.EPC_CNT_HEELS 0).wr F.EPC_STAT_PHASE 0 0
    let d := if d.rd F.EPC_STAT_LEADER = 1 then d.giveKept c else d
    if d.groupDue then d.applyGroup c else d

/-- A member learns from the keepers that the heel of E is committed (R364): it acts on it, and the leader sends COMMIT. -/
def Dev.heelKnown (d : Dev) (c : Cx) (e : Nat) : Dev :=
  let d := if d.rd F.EPC_STAT_LEADER = 1 && d.shipE = some e then d.heelAll 6 e 0 0 else d
  d.heelDone c e

/-- COMMIT(E). -/
def execHeelCommit (_src e : Nat) (s : State) : Host.Outcome State Fault Refusal := s.run fun c d => d.heelDone c e

/-! ### Rollback (R380 to R382) -/

/-- Does a request come from outside the module? -/
def Src.outside : Src → Bool
  | .fabric _ _ _ _ => true
  | .host _ _ => true
  | _ => false

/-- Step 2, engines: threads stop and hand nothing over, dispatch queues empty, and every descriptor not completed waits for
REPLAY; one of an epoch up to R that has ended keeps its completion. Bay state is discarded. DEDUCED (log 63). -/
def Dev.dropEngines (d : Dev) (r : Nat) : Dev :=
  let rings := ((d.instances F.RNG_CTL_STATE).filter fun x => d.rd F.RNG_CTL_STATE x ≠ 0)
  let d := { d with
    threads := [], answers := [], comb := [], sketch := [], pq := [], coal := [], scratch := [], pwin := [],
    portHeld := d.portHeld.filter (fun (w : Waiting) => w.txn.src.outside),
    reqs := d.reqs.map (fun (q : Req) => match q.purpose with
      | .access _ _ _ => { q with purpose := .posted }
      | .delta => { q with purpose := .posted }
      | _ => q),
    jobs := d.jobs.map fun (j : Job) => match j.place with
      | .ended _ => if j.epoch ≤ r then j else { j with place := .replay }
      | _ => { j with place := .replay } }
  rings.foldl (fun d x => ((d.setHold x 3 false).setHold x 4 false).setHold x 5 false) d

/-- Step 2, rings: each ACTIVE or HALTED ring holds REPLAY_WAIT, and the first descriptor it fetched in the lost epoch is
noted (R184, R381). DEDUCED (log 63). -/
def Dev.waitReplay (d : Dev) (lostEpoch : Nat) : Dev :=
  let rings := (d.instances F.RNG_CTL_STATE).filter fun x => d.rd F.RNG_CTL_STATE x = 1 || d.rd F.RNG_CTL_STATE x = 2
  let first (x : Nat) : Nat :=
    ((tget d.epochPrev x).orElse fun _ => tget d.epochFirst x).getD (d.rd F.RNG_PTR_FETCH x)
  let idx := rings.foldl (fun t x => tset t x (first x)) ([] : Tbl Nat)
  rings.foldl (fun d x => d.setHold x 1 true) { d with lostEpoch := lostEpoch, replayIdx := idx }

/-- Step 3: requests from outside that are in progress are held, the module's own are dropped, and every copy is
invalidated. DEDUCED (log 63). -/
def Dev.dropCopies (d : Dev) (c : Cx) : Dev :=
  let all := d.trackers ++ d.conflict ++ d.fills.flatMap fun f => f.waiting
  let keep (t : Txn) : Bool := t.src.outside && !t.forwarded
  let d := (all.filter fun t => !keep t).foldl (fun d t => d.release t) d
  let d := { d with
    hold := 2, trackers := [], conflict := [],
    fills := (d.fills.filter (fun (f : Fill) => !f.reb)).map (fun (f : Fill) => { f with waiting := [] }),
    held := (all.filter keep).map (fun (t : Txn) => { t with snoops := [], group := 0, lost := false }) ++ d.held }
  let d := (d.dir.map fun (_, e) => (e.line, e.collar)).foldl (fun d (l, col) =>
    let t : Txn := { line := l, collar := col, want := .evict, src := .home, since := c.tmr }
    let (d, t) := d.snoopLines c t 1
    if t.snoops.isEmpty && t.group = 0 then d else { d with victims := d.victims ++ [t] }) d
  { d with dir := [], abuf := [] }

/-- Step 4, with R145 and R291: no cached translation, no walk, no Scent, no pending migration; a closing window stays
CLOSING, its descriptor's completion being REPLAY. -/
def Dev.dropXlate (d : Dev) : Dev :=
  { d.cancelRedir (fun _ => true) with bayTlb := [], shrTlb := [], walks := [], inval := none,
                                       closing := d.closing.map fun (w, _, i) => (w, 4096, i) }

/-- Put a page back from its undo entry: zeros where it was scrubbed; a lost pre-image is recovered from the pack or the page
poisoned (R380, R481). DEDUCED (log 63). -/
def Dev.restorePage (d : Dev) (c : Cx) (u : Undo) (scrubbed : Bool) (lost : Option (Option Bytes)) : Dev :=
  let a := u.page * 4096
  let d := { d with mem := memClear d.mem a 4096, poison := d.poison.filter (fun l => l / 64 ≠ u.page) }
  let d := match scrubbed, lost with
    | true, _ => d
    | _, some (some b) => { d with mem := memPut d.mem a (takeBytes 4096 b) }
    | _, some none => (List.range 64).foldl (fun d i => d.mark (u.page * 64 + i)) d
    | _, none => { d with mem := memRestore d.mem a 4096 u.pre, poison := u.prePoison.foldl sadd d.poison }
  d.touch c.variant u.page true

/-- Step 5: each page with an entry after R goes back to its oldest pre-image; entries are freed but for one SCRUBBED entry
of each scrubbed page, with the pre-image of R (R62). `lost` names pages whose oldest pre-image is lost, each with the
contents the pack gives. -/
def Dev.restorePages (d : Dev) (c : Cx) (lost : List (Nat × Option Bytes)) : Dev :=
  let oldest := d.undo.foldl (fun (l : List Undo) u => if l.any fun x => x.page = u.page then l else l ++ [u]) []
  let scr (p : Nat) : Bool := d.undo.any fun u => u.page = p && u.scrubbed
  let d := oldest.foldl (fun d u =>
    let bad := match lost.find? fun (p, _) => p = u.page with
      | some (_, b) => some b
      | none => if u.lost then some none else none
    d.restorePage c u (scr u.page) bad) d
  { d with undo := (oldest.filter fun (u : Undo) => scr u.page).map fun (u : Undo) => { u with scrubbed := true } }

/-- Shadows switched after R are freed, and the ones they superseded are current again (R354). -/
def Dev.restoreShadows (d : Dev) (r : Nat) : Dev :=
  { d with tens := (d.tens.filter fun (_, e) => !(e.shadow && decide (r < e.epoch))).map fun (k, e) =>
      if e.shadow && e.ended.isSome && decide (r < e.endEpoch) then (k, { e with ended := none, endEpoch := 0 }) else (k, e) }

/-- A revocation resumes at step 4 of R59 (R62). -/
def Dev.redrain (d : Dev) : Dev :=
  ((d.instances F.KNL_BIND_STATE).filter fun k => d.rd F.KNL_BIND_STATE k = 2).foldl (fun d k => d.wr F.KNL_BIND_PHASE k 0) d

/-- Steps 2 to 5 of R380 on this module, for the last committed heel R. DEDUCED (log 63). -/
def Dev.rollTo (d : Dev) (c : Cx) (r : Nat) (lost : List (Nat × Option Bytes)) : Dev :=
  let le := d.shipE.getD (d.rd F.EPC_EPOCH_EPOCH)
  let d := ((d.waitReplay le).dropEngines r).dropCopies c
  ((d.dropXlate.restorePages c lost).restoreShadows r).redrain

/-- ROLLBACK(R, cause): the rollback supersedes a heel (R41) and runs steps 2 to 5; one that runs already restarts (R390). A
heel that this module did not know to be committed, up to R, is. A module reset that runs restores the store itself (R382). -/
def execHeelRollback (src r cause : Nat) (lost : List (Nat × Option Bytes)) (s : State) : Host.Outcome State Fault Refusal :=
  s.run fun c d =>
    if !d.inGroup then d
    else if d.running.any fun x => x.tr.prio = 1 then
      let d := match d.shipE with
        | some e => if e ≤ r && d.rstStep ≤ 8 then d.heelDone c e else d
        | none => d
      if src = d.rd F.MAP_NODE_NODE then d else (d.wr F.EPC_STAT_LEADER 0 0).wr F.EPC_STAT_LEADER_NODE 0 src
    else
      let again := d.running.any fun x => x.tr.prio = 2
      let d := if again then d else d.want (.rollback cause)
      if !again && !d.canStart (.rollback cause) then d
      else
        let d := if again then d else d.begin c (.rollback cause)
        let d := match d.shipE with
          | some e => if e ≤ r then d.heelDone c e else d
          | none => d
        let d := d.supersede (· = .heel)
        let me := d.rd F.MAP_NODE_NODE
        let d := if src = me then d else (d.wr F.EPC_STAT_LEADER 0 0).wr F.EPC_STAT_LEADER_NODE 0 src
        let d := { d with heelHold := false, heelStep := 7, heelAsked := false, heelLead := none }
        let d := ((d.wr F.EPC_STAT_PHASE 0 4).wr F.EPC_EPOCH_WAIT 0 1).wr F.EPC_STAT_CAUSE 0 cause
        let d := if again then d else d.inc F.EPC_CNT_ROLLBACKS 0
        d.rollTo c r lost

/-- Step 6: the pages are restored and every copy has been given up; ROLLED with the highest epoch seen. -/
def execRollbackRestoreEnd (s : State) : Host.Outcome State Fault Refusal :=
  s.run fun _ d =>
    if d.rd F.EPC_EPOCH_WAIT = 0 || d.heelStep ≠ 7 || !d.victims.isEmpty then d
    else { d.heelMsg 9 (max d.epochSeen (d.rd F.EPC_EPOCH_EPOCH)) 0 0 (d.rd F.EPC_STAT_LEADER_NODE) with heelStep := 8 }

/-- Step 7: the leader sends RESUME(F) when every present member has reported, F one above the highest number reported. -/
def Dev.rollCheck (d : Dev) : Dev :=
  match d.rollLead with
  | none => d
  | some l =>
    if d.present.all fun n => (tget l.got n).isSome then
      let f := (l.got.foldl (fun m (_, e) => max m e) d.epochSeen) + 1
      { d with rollLead := none, epochSeen := f }.heelAll 10 0 f 0
    else d

/-- ROLLED(highest epoch) from a member. -/
def execHeelRolled (src seen : Nat) (s : State) : Host.Outcome State Fault Refusal :=
  s.run fun _ d => match d.rollLead with
    | none => d
    | some l => ({ d with rollLead := some { l with got := tset l.got src seen } }).rollCheck

/-- The REPLAY record of a ring (R178, R184). DEDUCED (log 26). -/
def Dev.replayRecord (d : Dev) (c : Cx) (r i : Nat) : Dev :=
  d.fault c.tmr { type := 0x0C, cls := 1, collar := d.ringFn r, ring := some r, w20 := d.lostEpoch, w28 := i }

/-- Complete with REPLAY what a rollback discarded, and write one REPLAY record to each ring's function (R184). -/
def Dev.replay (d : Dev) (c : Cx) : Dev :=
  let d := (d.jobs.filter fun j => j.place = .replay).foldl (fun d j => d.writeCompl c j { status := 0x1A }) d
  let d := d.replayIdx.foldl (fun d (r, i) => d.replayRecord c r i) d
  { d with replayIdx := [] }

/-- Step 8: epoch F is in force, the held requests go on, descriptors complete and REPLAY records are written. SCRUBBED
entries belong to F (R62). DEDUCED (log 61, 63). -/
def execHeelResume (_src f : Nat) (s : State) : Host.Outcome State Fault Refusal :=
  s.run fun c d =>
    if d.rd F.EPC_EPOCH_WAIT = 0 || d.heelStep ≠ 8 || d.running.any (fun r => r.tr.prio = 1) then d
    else
      let d := { d with undo := d.undo.map (fun (u : Undo) => { u with epoch := f }), epochSeen := max d.epochSeen f,
                        shipE := none, epochPrev := [], epochFirst := [], heelStep := 0, synced := true,
                        grpNodes := d.present }
      let d := ((d.wr F.EPC_EPOCH_EPOCH 0 f).wr F.EPC_STAT_PHASE 0 0).unhold c
      let d := (d.replay c).wr F.EPC_EPOCH_WAIT 0 0
      let d := match d.running.find? fun r => r.tr.prio = 2 with
        | some r => d.finish r.tr
        | none => d
      let d := if d.groupDue then d.applyGroup c else d
      if d.rd F.EPC_STAT_LEADER = 1 then { d with rebKept := [], rebOut := [] }.startRebuilds c else d

/-! ### Handed objects (R388, R389) -/

/-- The leader gets a range back (R386): the next range of the replacement is offered, or nothing is left. -/
def Dev.rangeBack (d : Dev) (c : Cx) (obj node : Nat) : Dev :=
  let g := bits obj 0 17
  let pos := bits obj 17 4
  let n := ((d.map.modules.find? fun m => m.node = node).map fun m => m.k + 2).getD d.packN
  let next := planIndex n pos c.variant.storeGiB g + 1
  let d := { d with rebOut := d.rebOut.filter (· ≠ obj) }
  if next < c.variant.storeGiB then d.giveRange c (obj - g + planGiB n pos c.variant.storeGiB next) node else d

/-- Act on an object this module holds. A heel or rollback request passes on to the leader; a rebuild range of this
replacement is rebuilt, or handed back when it has been. DEDUCED (log 61). -/
def Dev.actOn (d : Dev) (c : Cx) (kind obj src : Nat) : Dev :=
  let leader := d.rd F.EPC_STAT_LEADER = 1
  let pos := d.rd F.PAK_CFG_POS
  let n := d.packN
  match kind with
  | 0 =>
    if obj ≠ d.rd F.EPC_EPOCH_EPOCH % 2 ^ 32 then d
    else d.askHeel c
  | 1 => if leader then d.leadRollback obj else d.offer c 1 obj (d.rd F.EPC_STAT_LEADER_NODE)
  | 2 =>
    let d := (d.wr F.EPC_STAT_LEADER 0 1).wr F.EPC_STAT_LEADER_NODE 0 (d.rd F.MAP_NODE_NODE)
    d.startRebuilds c
  | _ =>
    let g := bits obj 0 17
    let mine := d.rd F.PAK_RBLD_ACTIVE = 1 && bits obj 17 4 = pos && bits obj 21 11 = d.rd F.PAK_CFG_PACK % 2048
    let todo := decide (d.rd F.PAK_RBLD_DONE ≤ planIndex n pos c.variant.storeGiB g)
    if mine && todo then { d with rebMine := some g }.wr F.PAK_RBLD_RANGE 0 g
    else if leader && d.rebOut.contains obj then d.rangeBack c obj src
    else if mine then d.offer c 3 obj (d.rd F.EPC_STAT_LEADER_NODE)
    else d

/-- HAND OFFER: taken and acknowledged when its generation exceeds the highest seen of the object, discarded otherwise. -/
def execOffer (src kind object gen : Nat) (s : State) : Host.Outcome State Fault Refusal :=
  s.run fun c d =>
    let key := handKey (kind % 16) (object % 2 ^ 32)
    if gen ≤ (tget d.gens key).getD 0 || 3 < kind then d
    else
      let d := { d with gens := tset d.gens key gen }
      let d := d.emit (.msg { mtype := 0x3A, dst := src, src := d.rd F.MAP_NODE_NODE, attr := 1,
                              param := kind + 2 ^ 4 * (object % 2 ^ 32) + 2 ^ 64 * gen })
      d.actOn c kind (object % 2 ^ 32) src

/-- HAND ACK: the sender discards its copy; one with a lower generation is discarded. -/
def execHandAck (src kind object gen : Nat) (s : State) : Host.Outcome State Fault Refusal :=
  s.run fun _ d => { d with handing := d.handing.filter fun (h : Handed) =>
    !(h.dst = src && h.kind = kind && h.object = object && h.gen = gen) }

/-- No ACK within 10 ms: the object is offered again to its receiver under the next generation; once the map has removed the
receiver, the sender acts on the object itself. -/
def execHandoffTimeout (kind object : Nat) (s : State) : Host.Outcome State Fault Refusal :=
  s.run fun c d => match d.handing.find? fun h => h.kind = kind && h.object = object with
    | none => d
    | some h =>
      if c.tmr < h.since + 1000000 then d
      else if d.map.modules.any fun m => m.node = h.dst then d.offer c kind object h.dst
      else
        let key := handKey kind object
        let d := { d with handing := d.handing.filter (· ≠ h), gens := tset d.gens key (h.gen + 1) }
        if kind = 2 then
          match lowest d.present with
          | some n => if n = d.rd F.MAP_NODE_NODE then d.actOn c 2 object n else d.offer c 2 object n
          | none => d
        else if kind = 3 then { d with rebOut := d.rebOut.filter (· ≠ object) }
        else d.actOn c kind object h.dst

/-! ### Parity and rebuild (R377, R378, R384 to R387) -/

/-- Is a node a member of this module's pack? -/
def Dev.packMember (d : Dev) (n : Nat) : Bool :=
  d.rd F.PAK_CFG_VALID = 1 && (List.range 16).any fun p => d.rd F.PAK_MEMB_PV p = 1 && d.rd F.PAK_MEMB_NODE p = n

/-- Add to the bytes of a block. DEDUCED (log 64). -/
def Dev.addBlock (d : Dev) (off : Nat) (b : Bytes) : Dev :=
  { d with mem := memPut d.mem off (xorBytes (d.bytes off 256) (takeBytes 256 b)) }

/-- PARITY_DELTA at a holder: the page's first delta of E captures it, then P takes the delta and Q the delta times gⁱ
(R378). A page this replacement has not rebuilt takes its contents later. A sender outside the pack is refused. DEDUCED (log 64). -/
def execParityDelta (h : Hdr) (epoch i : Nat) (data : Bytes) (ecc : Option Ecc) (s : State) :
    Host.Outcome State Fault Refusal :=
  s.run fun c d =>
    let off := bits h.off 0 47 / 256 * 256
    let page := off / 4096
    let n := d.packN
    let g := page / 262144
    let pos := d.rd F.PAK_CFG_POS
    if !d.packMember h.src || !d.parityGiB g then d.cmpTo h 1
    else if d.needsRebuild c.variant page then d.cmpTo h 0
    else
      let (d, ok) := d.capture c page epoch true
      if !ok then d
      else if payloadLost ecc then
        (((List.range 4).foldl (fun d k => d.mark (off / 64 + k)) d).lostPayload c 1023 off ecc).cmpTo h 3
      else
        let data := takeBytes 256 data
        let d := (d.homeEcc c (off / 64) ecc).touch c.variant page true
        let d := if pos = holderP n g then d.addBlock off data else d.addBlock off (gfScale (gfPow (i % 16)) data)
        d.cmpTo h 0

/-- A block of a page as at the last committed heel R: of its oldest undo entry after R, else of the page (R384). Empty: it
holds a poisoned line. -/
def Dev.blockAt (d : Dev) (r off : Nat) : Bytes :=
  let page := off / 4096
  let b := off % 4096
  match d.undo.find? fun u => u.page = page && decide (r < u.epoch) with
  | some u =>
    if u.lost || u.prePoison.any (fun l => l / 4 = off / 256) then []
    else (List.range 256).map fun k => (tget u.pre (b + k)).getD 0
  | none => if (List.range 4).any fun k => d.poisoned (off / 64 + k) then [] else d.bytes off 256

/-- REBUILD_RD: answered with the block, with ZERO alone for an all-zero one, or with POISON. DEDUCED (log 64). -/
def execRebuildRd (h : Hdr) (r : Nat) (s : State) : Host.Outcome State Fault Refusal :=
  s.run fun _ d =>
    let b := d.blockAt r (bits h.off 0 47 / 256 * 256)
    let zero := b.all fun x => x = 0
    d.emit (.msg { mtype := 0x42, dst := h.src, src := d.rd F.MAP_NODE_NODE, tag := h.tag, off := h.off,
                   status := if b.isEmpty then 3 else 0, attr := if zero && !b.isEmpty then 1 else 0,
                   payload := if zero then [] else b })

/-- What waited for pages that are now rebuilt goes on. -/
def Dev.rebuiltGo (d : Dev) (c : Cx) (p : Nat → Bool) : Dev :=
  let go := (d.fills.filter fun f => f.reb && p f.page).flatMap fun f => f.waiting
  let d := { d with fills := d.fills.filter (fun (f : Fill) => !(f.reb && p f.page)) }
  go.foldl (fun d t => d.settle c t) d

/-- REBUILD_DATA: a survivor's block of a page this replacement rebuilds. The page is recovered when its sixteen blocks have
come from every source, and what waits for it goes on (R385). DEDUCED (log 64). -/
def execRebuildData (h : Hdr) (zero : Bool) (status : Nat) (data : Bytes) (s : State) : Host.Outcome State Fault Refusal :=
  s.run fun c d => match d.reqs.find? fun r => r.tag = h.tag && r.dst = h.src && r.purpose = .rebuild with
    | none => d
    | some q =>
      let off := bits q.addr 0 47
      let page := off / 4096
      let d := { d with reqs := d.reqs.filter (· ≠ q) }
      match (List.range 16).find? fun p => d.rd F.PAK_MEMB_PV p = 1 && d.rd F.PAK_MEMB_NODE p = h.src with
      | none => d
      | some p =>
        let x : Bytes := if status ≠ 0 then [] else if zero then List.replicate 256 0 else takeBytes 256 data
        let got := (tget d.rebGot (off / 256)).getD []
        let d := { d with rebGot := tset d.rebGot (off / 256) (got.filter (fun (y, _) => y ≠ p) ++ [(p, x)]) }
        let ps := (d.sources (page / 262144) (d.rd F.PAK_CFG_POS)).getD []
        let blocks := (List.range 16).map fun b => (b, (tget d.rebGot (page * 16 + b)).getD [])
        let full := blocks.all fun (_, l) => ps.all fun p => l.any fun (y, _) => y = p
        if !full || !d.needsRebuild c.variant page then d
        else
          let d := d.putRebuilt c.variant page (blocks.map fun (b, l) => (b, l.filter fun (y, _) => ps.contains y))
          { d with rebGot := d.rebGot.filter (fun (k, _) => k / 16 ≠ page) }.rebuiltGo c (· = page)

/-- A range is rebuilt (R386): its pages from the sources' pages, each given with the positions they come from; the pages not
given are ZERO on every survivor. The range goes back to the leader; after the last one the pack is WHOLE. -/
def execRebuildRangeEnd (pages : List (Nat × List (Nat × Bytes))) (s : State) : Host.Outcome State Fault Refusal :=
  s.run fun c d => match d.rebMine with
    | none => d
    | some g =>
      let pos := d.rd F.PAK_CFG_POS
      if d.rd F.PAK_RBLD_ACTIVE = 0 || (d.sources g pos).isNone then d
      else
        let todo := pages.filter fun (p, _) => p / 262144 = g && d.needsRebuild c.variant p
        let d := todo.foldl (fun d (p, srcs) => d.putRebuilt c.variant p ((List.range 16).map fun b =>
          (b, srcs.map fun (q, x) => (q, if x.isEmpty then [] else takeBytes 256 (x.drop (256 * b)))))) d
        let done := planIndex d.packN pos c.variant.storeGiB g + 1
        let d := { d with rebMine := none, rebPages := d.rebPages.filter (fun p => p / 262144 ≠ g),
                          rebGot := d.rebGot.filter (fun (k, _) => k / 4194304 ≠ g) }
        let d := (d.wr F.PAK_RBLD_DONE 0 done).rebuiltGo c fun p => p / 262144 = g
        let d := d.offer c 3 (rangeObj g pos (d.rd F.PAK_CFG_PACK)) (d.rd F.EPC_STAT_LEADER_NODE)
        if done < c.variant.storeGiB then d.wr F.PAK_RBLD_RANGE 0 (planGiB d.packN pos c.variant.storeGiB done)
        else
          let d := (d.wr F.PAK_RBLD_ACTIVE 0 0).wr F.PAK_MEMB_LOST pos 0
          let lost := (List.range d.packN).filter d.posLost
          let d := ((d.wr F.PAK_STAT_LOST_A 0 (lost.getD 0 0)).wr F.PAK_STAT_LOST_AV 0 (min 1 lost.length)).wr F.PAK_STAT_LOST_BV 0 0
          d.wr F.PAK_STAT_STATE 0 (if lost.isEmpty then 1 else 2)

end Sys2Proof.Machine
end

