-- ==== Sys2Proof/Machine/Links.lean ====
section
/-! DEFINITION. Fabric links (spec/14): states and training, key agreement, link-level retry, credits and transmission,
rekeying, retirement, cables (spec/18, R558), and the internal switch. -/
namespace Sys2Proof.Machine

/-! ### Link states (R443) -/

/-- LNK_STAT.STATE of a link. -/
def Dev.lstate (d : Dev) (i : Nat) : Nat := d.rd F.LNK_STAT_STATE i

/-- Change what a link keeps. -/
def Dev.modLk (d : Dev) (i : Nat) (f : LinkSt → LinkSt) : Dev := d.setLk i (f (d.lk i))

/-- Credits at full: the receive buffers of R453. DEDUCED (log 76). -/
def fullCredits : List Nat := [4096, 4096, 1024, 1024, 2048, 2048, 512, 1536]

/-- What stays of a link that leaves UP for good: unacknowledged flits are discarded (R448), keys end (R527). -/
def LinkSt.clear (l : LinkSt) : LinkSt := { trained := l.trained, lastRetrain := l.lastRetrain }

/-- A link goes to a state without traffic: its keys end, its unacknowledged flits are discarded, and messages it had not
begun to send take the remaining links (R443, R448, R462). -/
def Dev.linkTo (d : Dev) (i st : Nat) : Dev :=
  let q := (d.lk i).txq
  let d := ((d.wr F.LNK_STAT_STATE i st).wr F.LNK_STAT_SECURE i 0).wr F.LNK_STAT_PEERV i 0
  q.foldl (fun d m => d.switch m) (d.modLk i LinkSt.clear)

/-- A link goes DOWN. DEDUCED (log 77). -/
def Dev.linkDown (d : Dev) (i : Nat) : Dev := d.linkTo i 1

/-- A link goes OFF with its domain. DEDUCED (log 77). -/
def Dev.linkOff (d : Dev) (i : Nat) : Dev := d.linkTo i 0

/-- A link starts to train (R444, step 1 done): every training after the first since power-on is counted. -/
def Dev.trainLink (d : Dev) (c : Cx) (i : Nat) : Dev :=
  let l := d.lk i
  let d := if l.trained then d.inc F.LNK_STAT_RETRAINS i else d
  let d := ((d.wr F.LNK_STAT_STATE i 2).wr F.LNK_STAT_SECURE i 0).wr F.LNK_STAT_PEERV i 0
  d.setLk i { l with trained := true, step := 2, stepAt := c.tmr, retry := none, sw := none, swReady := false, rxSw := none,
                     parts := [], partsDone := [] }

/-- An UP link leaves UP and trains again; a second time within 1 s takes it DOWN (R443). -/
def Dev.retrainLink (d : Dev) (c : Cx) (i : Nat) : Dev :=
  let l := d.lk i
  if d.lstate i ≠ 4 then d
  else if (match l.lastRetrain with
    | some t => decide (c.tmr < t + 100000000)
    | none => false) then d.linkDown i
  else (d.setLk i { l with lastRetrain := some c.tmr }).trainLink c i

/-! ### Sending flits (R441, R445, R451) -/

/-- Flits leave: the transmit counter, and the key switch once the counter reaches C with KEY_READY in hand. -/
def Dev.countTx (d : Dev) (i n : Nat) : Dev :=
  let d := d.bump F.LNK_TXCTR_CTR i n
  let l := d.lk i
  match l.sw with
  | some at_ =>
    if l.swReady && at_ ≤ d.rd F.LNK_TXCTR_CTR i then
      (d.setLk i { l with sw := none, swReady := false }).bump F.LNK_KEY_TXGEN i
    else d
  | none => d

/-- The credit return of the next sequenced flit: VC and slots (R454). DEDUCED (log 77). -/
def LinkSt.giveBack (l : LinkSt) : Nat × Nat :=
  match (List.range 8).find? fun v => 0 < l.owed.getD v 0 with
  | some v => (v, min 127 (l.owed.getD v 0))
  | none => (0, 0)

/-- Take n from entry v of a list of counts. -/
def takeAt (l : List Nat) (v n : Nat) : List Nat := (List.range 8).map fun k => l.getD k 0 - (if k = v then n else 0)

/-- Add n to entry v of a list of counts. -/
def addAt (l : List Nat) (v n : Nat) : List Nat := (List.range 8).map fun k => l.getD k 0 + (if k = v then n else 0)

/-- Send one sequenced flit: it takes the next SEQ, stays in the replay buffer, and carries a credit return. -/
def Dev.sendFlit (d : Dev) (i : Nat) (msg : Option Msg) (ctl : Option (Nat × List Nat)) : Dev :=
  let l := d.lk i
  if 512 ≤ l.replay.length then d
  else
    let f : TxFlit := { seq := (l.txSeq + 1) % 1024, msg := msg, ctl := ctl }
    let (v, n) := l.giveBack
    let d := d.setLk i { l with txSeq := f.seq, replay := l.replay ++ [f], owed := takeAt l.owed v n }
    (d.emit (.flit i f l.rxLast v n)).countTx i 1

/-- Resend flits of the replay buffer, each under a new frame counter (R446). -/
def Dev.resend (d : Dev) (i : Nat) (fs : List TxFlit) : Dev :=
  let ack := (d.lk i).rxLast
  (fs.foldl (fun d f => d.emit (.flit i f ack 0 0)) d).countTx i fs.length

/-- A link becomes UP (R444, step 6): SEQ, ACK and frame counters 0, full credits, and the flits kept are resent. -/
def Dev.linkUp (d : Dev) (i : Nat) (secure : Bool) : Dev :=
  let d := (d.wr F.LNK_STAT_STATE i 4).wr F.LNK_STAT_SECURE i (if secure then 1 else 0)
  let d := (d.wr F.LNK_TXCTR_CTR i 0).wr F.LNK_RXCTR_CTR i 0
  let g := if secure then 1 else 0
  let d := (d.wr F.LNK_KEY_TXGEN i g).wr F.LNK_KEY_RXGEN i g
  let l := d.lk i
  let kept := (l.replay.zip (List.range l.replay.length)).map fun (x : TxFlit × Nat) => { x.1 with seq := x.2 + 1 }
  let d := d.setLk i { l with step := 0, txSeq := kept.length, replay := kept, rxLast := 0, retry := none, cred := fullCredits,
                              owed := [], defs := [0, 0, 0, 0], turn := 0, rekeys := 0, txRem := 0, rxRem := 0 }
  d.resend i kept

/-! ### Training (R444) -/

/-- May a link leave DOWN: enabled, its connector's cable present (R558), not retiring, its module not omitted as
lost (R494)? DEDUCED (log 78). -/
def Dev.mayTrain (d : Dev) (c : Cx) (i : Nat) : Bool :=
  i < c.variant.links && d.rd F.LNK_CTL_EN i = 1 && d.cables.contains (i / 8) && d.lstate i = 1 && !(d.lk i).retiring &&
    !d.omitted

/-- LINK_DETECT: a peer's signal on an enabled DOWN link (R443, R444). -/
def execLinkDetect (link : Nat) (s : State) : Host.Outcome State Fault Refusal :=
  s.run fun c d => if d.mayTrain c link then d.trainLink c link else d

/-- The limit of a training step in TMR ticks (R444). -/
def stepLimit : Nat → Nat
  | 2 => 5000000
  | 3 => 100000
  | 4 => 100000
  | _ => 4000000

/-- Does step 5 wait, because an end has no valid node (R444)? -/
def Dev.keyWaits (d : Dev) (i : Nat) : Bool := d.rd F.MAP_NODE_VALID 0 = 0 || !(d.lk i).peerNodev

/-- TRAINING_STEP_TIMEOUT: a step exceeds its limit; the link goes DOWN and FAILSTEP names the step (R443, R444). Steps 2 and
3 end together, at FRAMING_LOCK. DEDUCED (log 78). -/
def execTrainingStepTimeout (link step : Nat) (s : State) : Host.Outcome State Fault Refusal :=
  s.run fun c d =>
    let l := d.lk link
    let now := if l.step = 2 then step = 2 || step = 3 else l.step = step
    if !(d.lstate link = 2 || d.lstate link = 3) || l.step = 0 || !now || c.tmr < l.stepAt + stepLimit step ||
      (step = 5 && d.keyWaits link) then d
    else (d.linkDown link).wr F.LNK_STAT_FAILSTEP link step

/-- This module's IDENT record: node and NODEV, link, kind (0 module), and the hash of its identity certificate, whose
value the spec does not give. DEDUCED (log 76). -/
def Dev.sendIdent (d : Dev) (i : Nat) : Dev :=
  let (h, d) := d.pick
  d.emit (.linkctl i 1 [d.rd F.MAP_NODE_NODE, d.rd F.MAP_NODE_VALID, i, 0, h % 2 ^ 64])

/-- FRAMING_LOCK: lanes equalised, framed and deskewed; the ends exchange IDENT (R444, steps 2 to 4). -/
def execFramingLock (link : Nat) (s : State) : Host.Outcome State Fault Refusal :=
  s.run fun c d =>
    let l := d.lk link
    if d.lstate link ≠ 2 || l.step ≠ 2 then d
    else (d.setLk link { l with step := 4, stepAt := c.tmr }).sendIdent link

/-- Step 1 of R524: this end sends HELLO (a nonce, an ephemeral key, its DEBUG byte) and CHAIN. DEDUCED (log 76). -/
def Dev.startKeys (d : Dev) (i : Nat) : Dev :=
  let (n, d) := d.pick
  let (e, d) := d.pick
  let (ch, d) := d.pick
  d.emits [.linkctl i 2 [1, n, e, if d.rd F.SEC_DBG_STATE 0 = 0 then 0 else 1], .linkctl i 2 [2, ch]]

/-- A link enters step 5: UP at once when both ends allow PLAIN (R449); else the agreement starts when both ends have a
valid node (R444). DEDUCED (log 76). -/
def Dev.enterKeying (d : Dev) (c : Cx) (i : Nat) : Dev :=
  let l := d.lk i
  let d := (d.wr F.LNK_STAT_STATE i 3).setLk i { l with step := 5, stepAt := c.tmr, parts := [], partsDone := [] }
  if l.peerPlain && d.rd F.LNK_CTL_PLAIN i = 1 && !c.lock then d.linkUp i false
  else if d.keyWaits i then d else d.startKeys i

/-- IDENT of the peer: node and NODEV, link, kind, certificate hash, and whether it allows PLAIN (R444, step 4). A link
whose step 5 waited for a node starts the agreement when the IDENT brings it. -/
def execIdent (link node : Nat) (nodev : Bool) (peer : Nat) (acc : Bool) (hash : Nat) (plain : Bool) (s : State) :
    Host.Outcome State Fault Refusal :=
  s.run fun c d =>
    let l := d.lk link
    let first := d.lstate link = 2 && l.step = 4
    let again := d.lstate link = 3 && d.keyWaits link
    if !(first || again) then d
    else
      let d := (((d.wr F.LNK_STAT_PEERV link 1).wr F.LNK_STAT_PEER_ACC link (if acc then 1 else 0)).wr F.LNK_STAT_PEER_NODE
        link node).wr F.LNK_STAT_PEER_LINK link peer
      (d.setLk link { l with peerNodev := nodev, peerPlain := plain, peerHash := hash }).enterKeying c link

/-- This module's node becomes valid: links whose step 5 waited for it start the agreement (R444). -/
def Dev.nodeValid (d : Dev) (c : Cx) : Dev :=
  (List.range c.variant.links).foldl (fun d i =>
    if d.lstate i = 3 && !d.keyWaits i && (d.lk i).parts.isEmpty then (d.sendIdent i).enterKeying c i else d) d

/-! ### Key agreement (R523 to R525) -/

/-- The agreement fails (R525): FAIL to the peer, the count of its cause, the link DOWN with FAILSTEP 5. Causes 1 chain,
2 signature, 3 debug state. -/
def Dev.keyFail (d : Dev) (i cause : Nat) : Dev :=
  let d := d.emit (.linkctl i 2 [4, cause])
  let d := match cause with
    | 1 => d.inc F.SEC_LKFAIL_CHAIN 0
    | 2 => d.inc F.SEC_LKFAIL_SIG 0
    | _ => d.inc F.SEC_LKFAIL_DEBUG 0
  (d.linkDown i).wr F.LNK_STAT_FAILSTEP i 5

/-- All parts of the peer are in: check R525 with the verdicts of the public-key engines, then install keys (R524, steps
3 to 5). The DEBUG byte is the last of HELLO's 82. -/
def Dev.checkPeer (d : Dev) (i : Nat) (chainOk hashOk sigOk : Bool) : Dev :=
  let hello := (tget (d.lk i).parts 1).getD []
  let debug := (hello.getD 81 0).toNat
  if !chainOk || !hashOk then d.keyFail i 1
  else if !sigOk then d.keyFail i 2
  else if debug ≠ 0 || d.rd F.SEC_DBG_STATE 0 ≠ 0 then d.keyFail i 3
  else d.linkUp i true

/-- KEYMSG: one fragment of a part (1 HELLO, 2 CHAIN, 3 SIG, 4 FAIL). With HELLO and CHAIN in, this end signs the
transcript and sends SIG; with all three in, it checks its peer. The verdicts are those of the engines: the chain verifies
from the root, bytes 0 to 7 of the DeviceID hash match IDENT, the signature verifies. DESIGN CHOICE (log 66). -/
def execKeymsg (link part frag : Nat) (last : Bool) (data : Bytes) (chainOk hashOk sigOk : Bool) (s : State) :
    Host.Outcome State Fault Refusal :=
  s.run fun _ d =>
    let l := d.lk link
    if d.lstate link ≠ 3 || d.keyWaits link || part = 0 || 4 < part then d
    else if part = 4 then (d.linkDown link).wr F.LNK_STAT_FAILSTEP link 5
    else
      let had := (tget l.parts part).getD []
      if had.length ≠ 12 * frag || l.partsDone.contains part then d
      else
        let l := { l with parts := tset l.parts part (had ++ takeBytes 12 data),
                          partsDone := if last then sadd l.partsDone part else l.partsDone }
        let d := d.setLk link l
        let d := if last && part ≠ 3 && l.partsDone.contains 1 && l.partsDone.contains 2 then
            let (sg, d) := d.pick
            d.emit (.linkctl link 2 [3, sg])
          else d
        if last && l.partsDone = [1, 2, 3] then d.checkPeer link chainOk hashOk sigOk else d

/-! ### Receiving flits (R446, R450 to R452) -/

/-- An ACK covers every flit up to its SEQ. DEDUCED (log 76). -/
def ackReplay (ack : Nat) (r : List TxFlit) : List TxFlit :=
  if r.any (fun f => f.seq = ack) then (r.dropWhile fun f => f.seq ≠ ack).drop 1 else r

/-- Send a RETRY_REQ for the expected SEQ. -/
def Dev.askRetry (d : Dev) (c : Cx) (i n : Nat) : Dev :=
  let seq := ((d.lk i).rxLast + 1) % 1024
  (d.sendFlit i none (some (3, [seq]))).modLk i fun l => { l with retry := some (n, c.tmr) }

/-- The receive counter rises; a received KEY_SWITCH takes effect at its C (R451). -/
def Dev.countRx (d : Dev) (i : Nat) : Dev :=
  let d := d.bump F.LNK_RXCTR_CTR i
  match (d.lk i).rxSw with
  | some at_ => if at_ ≤ d.rd F.LNK_RXCTR_CTR i then
      (d.modLk i fun l => { l with rxSw := none }).bump F.LNK_KEY_RXGEN i else d
  | none => d

/-- Count slots received or sent, in units of 1,024. -/
def Dev.countSlots (d : Dev) (i n : Nat) (tx : Bool) : Dev :=
  let l := d.lk i
  if tx then (d.setLk i { l with txRem := (l.txRem + n) % 1024 }).inc F.LNK_SLOTS_TX i ((l.txRem + n) / 1024)
  else (d.setLk i { l with rxRem := (l.rxRem + n) % 1024 }).inc F.LNK_SLOTS_RX i ((l.rxRem + n) / 1024)

/-- FLIT_RECEIVE (R446, R452): errors are counted; a good flit's ACK is taken; a sequenced flit is accepted in SEQ order,
and anything else starts the retry. A LINKCTL record acts by its own row. -/
def execFlitReceive (link : Nat) (f : RxFlit) (s : State) : Host.Outcome State Fault Refusal :=
  s.run fun c d =>
    if d.lstate link ≠ 4 then d
    else
      let d := ((d.countRx link).inc F.LNK_ERR_CORR link f.corr).inc F.LNK_ERR_UNCORR link f.uncorr
      let tagBad := !f.bad && !f.integ && d.rd F.LNK_STAT_SECURE link = 1
      let d := if tagBad then d.inc F.LNK_ERR_TAG link else d
      let d := (List.range (f.uncorr + if tagBad then 1 else 0)).foldl (fun d _ => d.uncorrectable c 1 link 0) d
      let l := d.lk link
      if f.bad || !f.integ then (if l.retry.isSome then d else d.askRetry c link 1)
      else
        let d := d.setLk link { l with replay := ackReplay f.ack l.replay }
        if f.ftype = 1 then d
        else if f.seq = (l.rxLast + 1) % 1024 then
          let d := d.modLk link fun l => { l with rxLast := f.seq, retry := none, cred := addAt l.cred f.cvc f.crd,
                                                  owed := f.slots.foldl (fun o (v, n) => addAt o v n) l.owed }
          d.countSlots link (f.slots.map fun (x : Nat × Nat) => x.2).sum false
        else if l.retry.isSome then d else d.askRetry c link 1

/-- RETRY_REQ: every flit kept from the named SEQ on is resent (R446). -/
def execRetryReq (link seq : Nat) (s : State) : Host.Outcome State Fault Refusal :=
  s.run fun _ d =>
    if d.lstate link ≠ 4 then d
    else
      let r := (d.lk link).replay
      (d.inc F.LNK_ERR_RETRIES link).resend link (r.dropWhile fun f => f.seq ≠ seq)

/-- RETRY_REQ_REPEAT: 2 µs without the expected SEQ; after 8 without progress the link trains again, which is an event
of its leaky counter (R446, R447, R483). -/
def execRetryReqRepeat (link : Nat) (s : State) : Host.Outcome State Fault Refusal :=
  s.run fun c d => match (d.lk link).retry with
    | none => d
    | some (n, t) =>
      if d.lstate link ≠ 4 || c.tmr < t + 200 then d
      else if 8 ≤ n then (d.retrainLink c link).uncorrectable c 1 link 0
      else d.askRetry c link (n + 1)

/-- CREDIT: credits returned for a VC (R454). -/
def execCredit (link vc slots : Nat) (s : State) : Host.Outcome State Fault Refusal :=
  s.run fun _ d => if d.lstate link ≠ 4 || 7 < vc then d else d.modLk link fun l => { l with cred := addAt l.cred vc (slots % 128) }

/-! ### Transmission (R454, R455) -/

/-- The first message of a VC in a link's queue, if its slots are in hand. -/
def LinkSt.readyOn (l : LinkSt) (vc : Nat) : Option Msg :=
  match l.txq.find? fun m => vcOf m.mtype = vc with
  | some m => if msgSlots m ≤ l.cred.getD vc 0 then some m else none
  | none => none

/-- The VCs under weighted round robin, with their weights (R455). -/
def robinVcs : List (Nat × Nat) := [(0, 4), (4, 2), (5, 1), (7, 1)]

/-- Weighted round robin over slots: the turn passes on, each VC's deficit rising by its weight, until a ready message's
slots are covered. -/
def LinkSt.robin (l : LinkSt) : Nat → LinkSt × Option Msg
  | 0 => (l, none)
  | k + 1 =>
    let (vc, w) := robinVcs.getD (l.turn % 4) (0, 4)
    match l.readyOn vc with
    | some m =>
      let df := l.defs.getD (l.turn % 4) 0
      if msgSlots m ≤ df then ({ l with defs := takeAt l.defs (l.turn % 4) (msgSlots m) }, some m)
      else LinkSt.robin { l with defs := addAt l.defs (l.turn % 4) w, turn := (l.turn + 1) % 4 } k
    | none => LinkSt.robin { l with defs := takeAt l.defs (l.turn % 4) (l.defs.getD (l.turn % 4) 0), turn := (l.turn + 1) % 4 } k

/-- The message to send next: Control, Response, Forward, Snoop, then round robin (R455). DEDUCED (log 76). -/
def LinkSt.next (l : LinkSt) : LinkSt × Option Msg :=
  match [6, 1, 3, 2].findSome? l.readyOn with
  | some m => (l, some m)
  | none => l.robin 80

/-- The flits of a message of n slots: 15 slots to a flit; the first one names it. DEDUCED (log 76). -/
def Dev.sendFlits (d : Dev) (i : Nat) (m : Msg) : Dev :=
  let d := d.sendFlit i (some m) none
  (List.range ((msgSlots m + 14) / 15 - 1)).foldl (fun d _ => d.sendFlit i none none) d

/-- MESSAGE_TRANSMIT: after `idle` IDLE flits the link sends its next message whole, for which it holds credits (R454,
R455); with none ready and credits to return, a LINKCTL CREDIT flit (R442). A message begins a new flit. DEDUCED (log 76). -/
def execMessageTransmit (link idle : Nat) (s : State) : Host.Outcome State Fault Refusal :=
  s.run fun _ d =>
    if d.lstate link ≠ 4 then d
    else
      let d := d.countTx link idle
      let l := d.lk link
      if 510 ≤ l.replay.length then d
      else match l.next with
        | (l', some m) =>
          let vc := vcOf m.mtype
          let d := d.setLk link { l' with txq := l'.txq.erase m, cred := takeAt l'.cred vc (msgSlots m) }
          (d.sendFlits link m).countSlots link (msgSlots m) true
        | (l', none) =>
          let d := d.setLk link l'
          let (v, n) := l'.giveBack
          if n = 0 then d else d.sendFlit link none (some (4, [v, n]))

/-! ### Rekeying (R451, R526) -/

/-- The interval of rekeying: 2^REKEY_LOG flits, 40 for a value outside 32 to 48. -/
def Dev.rekeyLog (d : Dev) : Nat :=
  let n := d.rd F.MAP_LCFG_REKEY_LOG
  if 32 ≤ n && n ≤ 48 then n else 40

/-- Send KEY_SWITCH naming C. -/
def Dev.sendSwitch (d : Dev) (i at_ : Nat) : Dev :=
  (d.modLk i fun l => { l with sw := some at_, swReady := false }).sendFlit i none (some (5, [at_]))

/-- REKEY: the counter has reached a multiple of 2^REKEY_LOG, or the RTP asks (R451). -/
def execRekey (link : Nat) (asked : Bool) (s : State) : Host.Outcome State Fault Refusal :=
  s.run fun _ d =>
    let l := d.lk link
    let n := d.rd F.LNK_TXCTR_CTR link / 2 ^ d.rekeyLog
    if d.lstate link ≠ 4 || d.rd F.LNK_STAT_SECURE link = 0 || l.sw.isSome || !(asked || l.rekeys < n) then d
    else (d.setLk link { l with rekeys := max n l.rekeys }).sendSwitch link (d.rd F.LNK_TXCTR_CTR link + 1024)

/-- KEY_SWITCH: the receiver derives the next key and answers KEY_READY; it switches at C (R451). -/
def execKeySwitch (link at_ : Nat) (s : State) : Host.Outcome State Fault Refusal :=
  s.run fun _ d =>
    if d.lstate link ≠ 4 || d.rd F.LNK_STAT_SECURE link = 0 then d
    else (d.modLk link fun l => { l with rxSw := some at_ }).sendFlit link none (some (6, [at_]))

/-- KEY_READY: the transmitter may switch at C (R451). -/
def execKeyReady (link at_ : Nat) (s : State) : Host.Outcome State Fault Refusal :=
  s.run fun _ d =>
    let l := d.lk link
    if d.lstate link ≠ 4 || l.sw ≠ some at_ then d else d.setLk link { l with swReady := true }

/-- KEY_SWITCH_DEADLINE: without KEY_READY by C − 64, a new KEY_SWITCH with C advanced by 1,024 (R451). -/
def execKeySwitchDeadline (link : Nat) (s : State) : Host.Outcome State Fault Refusal :=
  s.run fun _ d =>
    let l := d.lk link
    match l.sw with
    | some at_ =>
      if d.lstate link ≠ 4 || l.swReady || d.rd F.LNK_TXCTR_CTR link + 64 < at_ then d
      else d.sendSwitch link (at_ + 1024)
    | none => d

/-! ### Leaving UP -/

/-- LOSS_OF_SIGNAL takes an UP link DOWN (R443). DEDUCED (log 77). -/
def execLossOfSignal (link : Nat) (s : State) : Host.Outcome State Fault Refusal :=
  s.run fun _ d => if d.lstate link = 4 then d.linkDown link else d

/-- LOST_ALIGNMENT: an UP link loses framing and trains again, keeping its unacknowledged flits (R443, R450). DEDUCED (log 75). -/
def execLostAlignment (link : Nat) (s : State) : Host.Outcome State Fault Refusal :=
  s.run fun c d => d.retrainLink c link

/-- LNK_CTL.EN = 1 (R443). -/
def execLinkEnable (link : Nat) (s : State) : Host.Outcome State Fault Refusal :=
  s.run fun c d => if d.pf0Up && link < c.variant.links then d.wr F.LNK_CTL_EN link 1 else d

/-- LNK_CTL.EN = 0 takes the link DOWN (R443). DEDUCED (log 77). -/
def Dev.linkDisable (d : Dev) (i : Nat) : Dev :=
  let st := d.lstate i
  let d := d.wr F.LNK_CTL_EN i 0
  if 2 ≤ st && st ≤ 4 then d.linkDown i else d

/-- LNK_CTL.EN = 0. -/
def execLinkDisable (link : Nat) (s : State) : Host.Outcome State Fault Refusal :=
  s.run fun c d => if d.pf0Up && link < c.variant.links then d.linkDisable link else d

/-- LNK_CTL.RETRAIN = 1 (R443). DEDUCED (log 78). -/
def execRetrain (link : Nat) (s : State) : Host.Outcome State Fault Refusal :=
  s.run fun c d => if d.pf0Up then d.retrainLink c link else d

/-- LINK_RETIRE_END (R467, steps 2 to 4): the replay buffer is acknowledged and the queue sent, or 1 ms has passed; what is
left is discarded, the link is RETIRED, and PF0 is told. -/
def execLinkRetireEnd (link : Nat) (s : State) : Host.Outcome State Fault Refusal :=
  s.run fun c d =>
    let l := d.lk link
    let drained := d.lstate link ≠ 4 || (l.replay.isEmpty && l.txq.isEmpty)
    if !l.retiring || !(drained || decide (l.since + 100000 ≤ c.tmr)) then d
    else
      let err := d.rd F.LNK_ERR_CORR link + 2 ^ 24 * d.rd F.LNK_ERR_UNCORR link + 2 ^ 40 * d.rd F.LNK_ERR_TAG link +
        2 ^ 52 * d.rd F.LNK_ERR_RETRIES link
      let peer := d.rd F.LNK_STAT_PEER_NODE link
      if l.quiet then d.linkOff link
      else
        let d := if l.lasting then { d with lasting := sadd d.lasting (128 + link) } else d
        (d.linkTo link 5).fault c.tmr
          { type := 0x11, cls := 3, engine := 10, w20 := link + 2 ^ 7 * (if l.lasting then 0 else 1) + 2 ^ 8 * peer, w28 := err }

/-- CABLE_PRESENCE_CHANGE of connector J10 + c (R558): the plug switches the 3.3 V output; without it the connector's links
do not leave DOWN. Connector 12 is J3, whose plug SYS_STRAP shows (R559, R565). DEDUCED (log 77). -/
def execCablePresenceChange (conn : Nat) (present : Bool) (s : State) : Host.Outcome State Fault Refusal :=
  s.run fun c d =>
    if conn = 12 then { d with cables := if present then sadd d.cables 12 else d.cables.filter (· ≠ 12) }
    else if c.variant.links / 8 ≤ conn then d
    else
      let d := { d with cables := if present then sadd d.cables conn else d.cables.filter (· ≠ conn) }
      if present then d
      else (List.range 8).foldl (fun d k =>
        let i := 8 * conn + k
        if 2 ≤ d.lstate i && d.lstate i ≤ 4 then d.linkDown i else d) d

/-! ### The switch (R461 to R466) -/

/-- A snoop that reaches this module, which holds no copy of another node's line: MISS, or FWD_MISS for a forward (R90,
R459). DEDUCED (log 38). -/
def Dev.snoopedHere (d : Dev) (m : Msg) : Dev :=
  let answer (ty : Nat) : Dev :=
    d.emit (.msg { mtype := ty, dst := m.src, src := d.rd F.MAP_NODE_NODE, tag := m.tag, off := m.off })
  if 0x20 ≤ m.mtype && m.mtype ≤ 0x22 then answer 0x33
  else if m.mtype = 0x28 || m.mtype = 0x29 then answer 0x35
  else d

/-- SWITCH_FORWARD: a message that arrived on a link and is for another node leaves on the link R66 chooses, or on the tree
of its group except where it came from. One it cannot deliver is counted, and a Request or Reduce message answered with
DENIED (R465). A reserved type is dropped and counted (R459). -/
def execSwitchForward (link : Nat) (m : Msg) (s : State) : Host.Outcome State Fault Refusal :=
  s.run fun _ d =>
    if d.lstate link ≠ 4 then d
    else if !mtypeKnown m.mtype then d.inc F.MAP_RSTAT_BADMSG 0
    else if m.grp then
      let out := (d.groupLinks m.dst).filter (· ≠ link)
      if d.rd F.MAPM_RMASK1_VALID m.dst = 0 || (out.isEmpty && d.rd F.MAPM_RMASK1_LOCAL m.dst = 0) then
        d.inc F.MAP_RSTAT_UNROUTABLE 0
      else
        let d := out.foldl (fun d i => d.enqueue i m) d
        if d.rd F.MAPM_RMASK1_LOCAL m.dst = 1 then d.snoopedHere m else d
    else if m.dst = d.rd F.MAP_NODE_NODE then d.snoopedHere m
    else
      let links := d.eligible m.dst
      match if links = [link] then none else chooseLink links m.off m.dst m.src with
      | some i => d.enqueue i m
      | none =>
        let d := d.inc F.MAP_RSTAT_UNROUTABLE 0
        if vcOf m.mtype = 0 || vcOf m.mtype = 4 then
          d.emit (.msg { mtype := 0x30, dst := m.src, src := m.dst, tag := m.tag, status := 1, off := m.off })
        else d

/-- INTR addressed to this module: answered with CMP (R460). -/
def execIntr (h : Hdr) (s : State) : Host.Outcome State Fault Refusal :=
  s.run fun _ d => d.cmpTo h 0

end Sys2Proof.Machine
end

