-- ==== Sys2Proof/Machine/Sec.lean ====
section
/-! DEFINITION. The root of trust (spec/16): firmware images, the boot chain, the SEC mailbox, SPDM, IDE_KM, TDISP and the
debug lock. -/
namespace Sys2Proof.Machine

/-! ### Boot flash and images (R506, R507, R214) -/

/-- n bytes of a slot. -/
def Dev.img (d : Dev) (slot off n : Nat) : Bytes :=
  (List.range n).map fun i => (tget d.bootFlash (slot * 2 ^ 25 + off + i)).getD 0

/-- A little-endian field of n bytes of a slot. -/
def Dev.imgNat (d : Dev) (slot off n : Nat) : Nat := leNat (d.img slot off n)

/-- The section of a kind: first byte, length and DIGEST; 1 RTP, 2 MCP, 3 STEP, 4 PHY. -/
def Dev.section_ (d : Dev) (slot kind : Nat) : Option (Nat × Nat × Bytes) :=
  ((List.range 4).find? fun s => d.imgNat slot (0x40 + 0x40 * s) 1 = kind).map fun s =>
    let at_ := 0x40 + 0x40 * s
    (4096 * d.imgNat slot (at_ + 4) 4, d.imgNat slot (at_ + 8) 4, d.img slot (at_ + 0x10) 48)

/-- Item 1 of R507. DESIGN CHOICE (log 66). -/
def Dev.imgFormat (d : Dev) (slot : Nat) : Bool :=
  let v := d.imgNat slot 0x10 8
  d.imgNat slot 0 4 = 0x4657494D && d.imgNat slot 4 2 = 1 && d.imgNat slot 6 2 = 0 &&
    bits v 32 4 < 4 && bits v 36 4 < 4 && decide (2 ≤ bits v 40 13) && decide (bits v 40 13 ≤ 8192) && bits v 53 11 = 0 &&
    [1, 2, 3, 4].all (fun k => (d.section_ slot k).isSome) &&
    (d.img slot 0x18 0x28).all (· = 0) && (d.img slot 0x88C 0x774).all (· = 0)

/-- How many operations a unit has (R197). DEDUCED (log 48). -/
def unitOps (u : Nat) : Nat := [10, 4, 3, 1, 9, 2, 2, 2, 2, 4, 1, 4, 1, 3].getD u 0

/-- The operand kinds R197 names: the scalar result of CTL and LDIDX, and the streams of LOAD, STORE, ATOM and STRM. DEDUCED (log 48). -/
def Step.kindsOk (s : Step) : Bool :=
  kindOf s.dst ≤ 8 && kindOf s.srca ≤ 8 && kindOf s.srcb ≤ 8 &&
    (match s.unit with
      | 0 => s.op < 2 || kindOf s.dst = 2
      | 1 => kindOf s.srca = 3 && (s.op ≠ 2 || kindOf s.dst = 2)
      | 2 => kindOf s.dst = 3
      | 3 => kindOf s.srca = 3
      | 11 => kindOf s.dst = 3
      | _ => true)

/-- Items 3 and 4 of R214 for one step word of an image with n slots. DEDUCED (log 48). -/
def stepLegal (w0 w1 n : Nat) : Bool :=
  let s := Step.decode w0 w1
  bits w0 58 6 = 0 && bits w1 60 4 = 0 && s.op < unitOps s.unit && (s.fmt < 8 || (s.unit ≠ 4 && s.unit ≠ 5)) &&
    s.kindsOk && decide (32 ≤ s.nextT) && s.nextT < n && decide (32 ≤ s.nextF) && s.nextF < n

/-- R214 for the STEP section. -/
def Dev.stepImageOk (d : Dev) (slot : Nat) : Bool :=
  match d.section_ slot 3 with
  | none => false
  | some (at_, len, _) =>
    let n := d.imgNat slot (at_ + 12) 2
    let word (i w : Nat) : Nat := d.imgNat slot (at_ + 64 + 16 * i + 8 * w) 8
    let entry (o : Nat) : Nat := d.imgNat slot (at_ + 64 + 2 * o) 2
    decide (64 + 16 * n ≤ len) && d.imgNat slot at_ 4 = 0x53544550 && d.imgNat slot (at_ + 4) 2 = 1 &&
      d.imgNat slot (at_ + 6) 2 = 0 && d.imgNat slot (at_ + 14) 2 = 0 && decide (33 ≤ n) && decide (n ≤ 16384) &&
      sha384 (d.img slot (at_ + 64) (16 * n)) = d.img slot (at_ + 16) 48 &&
      (List.range 256).all (fun o => if opBay o then decide (2 ^ 15 + 32 ≤ entry o) && entry o < 2 ^ 15 + min n (2 ^ 14)
        else entry o < 2 ^ 15) &&
      (List.range (n - 32)).all fun i => stepLegal (word (32 + i) 0) (word (32 + i) 1) n

/-- The first item of R507 a slot's image fails, as SEC_FWSTAT.ERR codes it; 0 when it is valid. DEDUCED (log 69). -/
def Dev.imgErr (d : Dev) (slot : Nat) (g : ImgSig) : Nat :=
  let v := d.imgNat slot 0x10 8
  let svn := d.imgNat slot 8 8
  if !g.flash then 8
  else if !d.imgFormat slot then 1
  else if d.bitAt F.SEC_FUSE_EREVOKE 0 (bits v 32 4) || d.bitAt F.SEC_FUSE_LREVOKE 0 (bits v 36 4) then 2
  else if !g.esig then 3
  else if !g.lsig then 4
  else if 64 < svn || svn < d.rd F.SEC_FUSE_FUSED 0 then 5
  else if ! [1, 2, 3, 4].all (fun k => match d.section_ slot k with
      | some (at_, len, dig) => decide (at_ + len ≤ 4096 * bits v 40 13) && sha384 (d.img slot at_ len) = dig
      | none => false) then 6
  else if !d.stepImageOk slot then 7
  else 0

/-- SEC_FWSTAT.OTHER_OK: the slot that is not ACTIVE holds a valid image whose SVN is not below FUSED (R508). -/
def Dev.otherOk (d : Dev) : Dev :=
  let o := 1 - d.nvActive
  d.wr F.SEC_FWSTAT_OTHER_OK 0 (if d.nvOk.contains o && decide (d.rd F.SEC_FUSE_FUSED 0 ≤ d.imgNat o 8 8) then 1 else 0)

/-- Show the update state. DEDUCED (log 69). -/
def Dev.fwShow (d : Dev) : Dev :=
  ((d.wr F.SEC_FWSTAT_ACTIVE 0 d.nvActive).wr F.SEC_FWSTAT_PENDING 0 (if d.nvPending then 1 else 0)).otherOk

/-- A slot fails a check: ERR, and the slot is marked invalid (R513). -/
def Dev.slotBad (d : Dev) (slot err : Nat) : Dev :=
  { d with nvOk := d.nvOk.filter (· ≠ slot) }.wr F.SEC_FWSTAT_ERR 0 err

/-! ### The boot chain (R509 to R511, R514, R215) -/

/-- Load a powered Shepherd cluster (R215). -/
def Dev.loadCluster (d : Dev) (tableId k : Nat) : Dev :=
  if d.rd F.PWR_DCTL_STATE (100 + k) = 1 then (d.wr F.SHP_CLSTAT_LOADED k 1).wr F.SHP_CLSTAT_TABLE_ID k tableId else d

/-- TABLE_ID of the running image. -/
def Dev.tableId (d : Dev) : Nat := match d.section_ d.runSlot 3 with
  | some (at_, _, _) => d.imgNat d.runSlot (at_ + 8) 4
  | none => 0

/-- Every powered cluster is loaded with the STEP section of the running image. -/
def Dev.loadSteps (d : Dev) : Dev :=
  match d.section_ d.runSlot 3 with
  | none => d
  | some (at_, _, _) =>
    let n := d.imgNat d.runSlot (at_ + 12) 2
    let words := (List.range (2 * n)).map fun i => d.imgNat d.runSlot (at_ + 64 + 8 * i) 8
    let tbl := (List.range (2 * n)).zip words |>.filter fun (_, w) => w ≠ 0
    let d := { d with steps := tbl, slots := n }
    (List.range 8).foldl (fun d k => d.loadCluster d.tableId k) d

/-- Steps 1 to 3 of R509 from a slot that has passed its checks: measurements 1 to 6, the alias certificate, and the
version and SVN of the image. -/
def Dev.runImage (d : Dev) (slot : Nat) (trial : Bool) : Dev :=
  let digest (k : Nat) : Bytes := match d.section_ slot k with
    | some (_, _, x) => x
    | none => []
  let (a, d) := d.pick
  let d := { d with runSlot := slot, alias_ := a, nvOk := sadd d.nvOk slot,
                    meas := [beBytes 48 Config.romDigest, digest 1, digest 2, digest 3, digest 4,
                             sha384 (d.img slot 0 4096)] }
  let d := (d.wr F.SEC_FWSTAT_TRIAL 0 (if trial then 1 else 0)).wr F.SEC_FWSTAT_VERSION 0 (d.imgNat slot 0x10 4)
  (d.wr F.SEC_SVN_RUNNING 0 (d.imgNat slot 8 8)).fwShow

/-- Try one slot, then the other; none when both fail. DESIGN CHOICE (log 66). -/
def Dev.bootFrom (d : Dev) (slot : Nat) (trial : Bool) (sigs : ImgSig × ImgSig) : Dev × Bool :=
  let sig (s : Nat) : ImgSig := if s = 0 then sigs.1 else sigs.2
  let e := d.imgErr slot (sig slot)
  if e = 0 then (d.runImage slot trial, true)
  else
    let d := d.slotBad slot e
    let o := 1 - slot
    let e := d.imgErr o (sig o)
    if e = 0 then (d.runImage o false, true) else ((d.slotBad o e).fwShow, false)

/-- The ROM chooses a slot (R510): the one marked PENDING once, as a trial; else the ACTIVE one. -/
def Dev.rtpBoot (d : Dev) (sigs : ImgSig × ImgSig) : Dev × Bool :=
  if d.nvPending then { d with nvPending := false }.bootFrom (1 - d.nvActive) true sigs
  else d.bootFrom d.nvActive false sigs

/-- Both slots have failed, or RECOVERY# is low: recovery (R511). DEDUCED (log 81). -/
def Dev.recovery (d : Dev) : Dev := { d with rtp := 2 }.alert 5

/-- A trial becomes ACTIVE when the module first reaches SERVING (R510). DEDUCED (log 69). -/
def Dev.trialGood (d : Dev) : Dev :=
  if d.rd F.SEC_FWSTAT_TRIAL 0 = 1 then (({ d with nvActive := d.runSlot }).wr F.SEC_FWSTAT_TRIAL 0 0).fwShow else d

/-! ### Sessions (R515, R516) -/

/-- Show the sessions. -/
def Dev.putSess (d : Dev) (l : List Sess) : Dev :=
  (({ d with sessions := l }).wr F.SEC_SESS_DOE 0 (l.filter fun (x : Sess) => x.via = 0).length).wr F.SEC_SESS_MCTP 0
    (l.filter fun (x : Sess) => x.via = 1).length

/-- Sessions end, each counted. -/
def Dev.endSess (d : Dev) (p : Sess → Bool) : Dev :=
  (d.putSess (d.sessions.filter fun s => !p s)).inc F.SEC_SESS_ENDED 0 (d.sessions.filter p).length

/-- An SPDM ERROR response: 2 InvalidSession, 3 Busy, 4 UnexpectedRequest, 5 Unspecified, 6 DecryptError, 7
UnsupportedRequest, 1 InvalidRequest. PRESUMED (log 68). -/
def Dev.spdmErr (d : Dev) (code : Nat) : Dev := d.emit (.spdm 0x7F [code])

/-- Does the responder answer on this transport: DOE with the port up, MCTP over the sideband (R502, R515)? -/
def Dev.spdmUp (d : Dev) (via : Nat) : Bool := d.rtp = 1 && (via = 1 || (via = 0 && d.rd F.CXP_LSTAT_UP 0 = 1))

/-- A request outside a session: it needs level n agreed on its transport. In recovery only GET_VERSION is answered, on
MCTP (R511). PRESUMED (log 68). -/
def Dev.spdmReq (d : Dev) (via n : Nat) (k : Dev → Dev) : Dev :=
  if d.rtp = 2 && via = 1 then d.spdmErr 7
  else if !d.spdmUp via then d
  else if d.spdmConn.getD via 0 < n then d.spdmErr 4
  else k d

/-- A request that needs the alias key: the debug unlock has destroyed it (R529). -/
def Dev.signed (d : Dev) (k : Dev → Dev) : Dev := if d.rd F.SEC_DBG_KEYS_GONE 0 = 1 then d.spdmErr 5 else k d

/-- A message in session id: its record is counted in both directions; at 2³² in either the session ends (R516). -/
def Dev.inSess (d : Dev) (id : Nat) (est : Bool) (k : Dev → Sess → Dev) : Dev :=
  match d.sessions.find? (·.id = id) with
  | none => if d.rtp = 1 then d.spdmErr 2 else d
  | some s =>
    if !d.spdmUp s.via then d
    else if s.est != est then d.spdmErr 4
    else
      let s : Sess := { s with rx := s.rx + 1, tx := s.tx + 1 }
      let d := k (d.putSess (mapIf (·.id = id) (fun _ => s) d.sessions)) s
      d.endSess fun s => s.id = id && (decide (2 ^ 32 ≤ s.rx) || decide (2 ^ 32 ≤ s.tx))

/-- A request that may travel in a session or outside one. -/
def Dev.anySess (d : Dev) (via : Nat) (sess : Option Nat) (k : Dev → Dev) : Dev :=
  match sess with
  | none => d.spdmReq via 3 k
  | some id => d.inSess id true fun d _ => k d

/-! ### SPDM requests (R515 to R517) -/

/-- GET_VERSION: 1.2 and 1.3. PRESUMED (log 68). -/
def execGetVersion (via : Nat) (s : State) : Host.Outcome State Fault Refusal :=
  s.run fun _ d =>
    if 1 < via || !(d.spdmUp via || (d.rtp = 2 && via = 1)) then d
    else { d with spdmConn := d.spdmConn.set via 1 }.emit (.spdm 0x04 [0x12, 0x13])

/-- The flags of CERT, CHAL, MEAS with signature, MEAS_FRESH, ENCRYPT, MAC, KEY_EX, HBEAT and KEY_UPD. PRESUMED (log 68). -/
def spdmCaps : Nat := 0x02 + 0x04 + 0x10 + 0x20 + 0x40 + 0x80 + 0x200 + 0x2000 + 0x4000

/-- GET_CAPABILITIES. -/
def execGetCapabilities (via : Nat) (s : State) : Host.Outcome State Fault Refusal :=
  s.run fun _ d => d.spdmReq via 1 fun d =>
    { d with spdmConn := d.spdmConn.set via 2 }.emit (.spdm 0x61 [spdmCaps])

/-- NEGOTIATE_ALGORITHMS: the algorithms of R515 are selected when the requester offers them (ok). PRESUMED (log 68). -/
def execNegotiateAlgorithms (via : Nat) (ok : Bool) (s : State) : Host.Outcome State Fault Refusal :=
  s.run fun _ d => d.spdmReq via 2 fun d =>
    if ok then { d with spdmConn := d.spdmConn.set via 3 }.emit (.spdm 0x63 [0x80, 0x02, 0x10, 0x02]) else d.spdmErr 1

/-- The certificate at a position of the chain (R505). UNVERIFIED (log 13). -/
def Dev.cert (d : Dev) (pos : Nat) : Bytes := if pos < 3 then d.certs.getD pos [] else leBytes Config.aliasLength d.alias_

/-- The chain of slot 0 as SPDM carries it: its length, the root's hash, the certificates. UNVERIFIED (log 13). -/
def Dev.chain (d : Dev) : Bytes :=
  let cs := d.cert 0 ++ d.cert 1 ++ d.cert 2 ++ d.cert 3
  leBytes 4 (52 + cs.length) ++ sha384 (d.cert 0) ++ cs

/-- GET_DIGESTS: slot 0 alone. -/
def execGetDigests (via : Nat) (sess : Option Nat) (s : State) : Host.Outcome State Fault Refusal :=
  s.run fun _ d => d.anySess via sess fun d => d.emit (.spdm 0x01 [1, beNat (sha384 d.chain)])

/-- GET_CERTIFICATE: n bytes of slot 0's chain from an offset; slots 1 to 7 are empty (R505). -/
def execGetCertificate (via : Nat) (sess : Option Nat) (slot off n : Nat) (s : State) : Host.Outcome State Fault Refusal :=
  s.run fun _ d => d.anySess via sess fun d =>
    let ch := d.chain
    if slot ≠ 0 || ch.length ≤ off then d.spdmErr 1
    else
      let part := (ch.drop off).take n
      d.emit (.spdm 0x02 ([part.length, ch.length - off - part.length] ++ part.map (·.toNat)))

/-- CHALLENGE: the chain's digest, a nonce and a signature under the alias key. -/
def execChallenge (via : Nat) (sess : Option Nat) (slot : Nat) (s : State) : Host.Outcome State Fault Refusal :=
  s.run fun _ d => d.anySess via sess fun d =>
    if slot ≠ 0 then d.spdmErr 1
    else d.signed fun d =>
      let (n, d) := d.pick
      let (g, d) := d.pick
      d.emit (.spdm 0x03 [1, beNat (sha384 d.chain), n % 2 ^ 256, g % 2 ^ 768])

/-- Measurement block 7 (R517), read at the moment of the request. -/
def Dev.block7 (d : Dev) (c : Cx) : Nat :=
  d.rd F.SEC_FUSE_FUSED 0 + 2 ^ 7 * d.rd F.SEC_FUSE_PROD 0 + 2 ^ 8 * d.rd F.SEC_FUSE_EREVOKE 0 +
    2 ^ 12 * d.rd F.SEC_FUSE_LREVOKE 0 + 2 ^ 16 * d.rd F.SEC_DBG_STATE 0 + 2 ^ 18 * (if c.lock then 1 else 0) +
    2 ^ 19 * (if c.variant.stacks = 8 then 1 else 0) + 2 ^ 20 * (if c.variant.dies = 4 then 1 else 0)

/-- A measurement block: index and value. PRESUMED (log 67). -/
def Dev.block (d : Dev) (c : Cx) (i : Nat) : List Nat :=
  [i, if i = 7 then d.block7 c else beNat (d.meas.getD (i - 1) [])]

/-- GET_MEASUREMENTS: how many blocks (0), one block, or all of them (255); signed under the alias key when asked. -/
def execGetMeasurements (via : Nat) (sess : Option Nat) (index : Nat) (sign : Bool) (s : State) :
    Host.Outcome State Fault Refusal :=
  s.run fun c d => d.anySess via sess fun d =>
    if 7 < index && index ≠ 255 then d.spdmErr 1
    else
      let blocks := if index = 0 then [7] else if index = 255 then (List.range 7).flatMap fun i => d.block c (i + 1)
        else d.block c index
      if !sign then d.emit (.spdm 0x60 blocks)
      else d.signed fun d =>
        let (n, d) := d.pick
        let (g, d) := d.pick
        d.emit (.spdm 0x60 (blocks ++ [n % 2 ^ 256, g % 2 ^ 768]))

/-- KEY_EXCHANGE: a session of its transport, with a heartbeat period in seconds; beyond four it is answered BUSY. -/
def execKeyExchange (via period : Nat) (s : State) : Host.Outcome State Fault Refusal :=
  s.run fun c d => d.spdmReq via 3 fun d =>
    if 4 ≤ (d.sessions.filter (·.via = via)).length then d.spdmErr 3
    else d.signed fun d =>
      let id := d.sessNext
      let (n, d) := d.pick
      let (g, d) := d.pick
      let new : Sess := { id := id, via := via, period := period * 100000000, last := c.tmr }
      ({ d with sessNext := id + 1 }.putSess (d.sessions ++ [new])).emit (.spdm 0x64 [id, period, n % 2 ^ 256, g % 2 ^ 768])

/-- FINISH completes the session; one whose verify data does not check ends it. DESIGN CHOICE (log 66). -/
def execFinish (sess : Nat) (ok : Bool) (s : State) : Host.Outcome State Fault Refusal :=
  s.run fun c d => d.inSess sess false fun d _ =>
    if ok then
      let done (s : Sess) : Sess := { s with est := true, last := c.tmr }
      (d.putSess (mapIf (·.id = sess) done d.sessions)).emit (.spdm 0x65 [])
    else (d.endSess (·.id = sess)).spdmErr 6

/-- HEARTBEAT. -/
def execHeartbeat (sess : Nat) (s : State) : Host.Outcome State Fault Refusal :=
  s.run fun c d => d.inSess sess true fun d _ =>
    let beat (s : Sess) : Sess := { s with last := c.tmr }
    (d.putSess (mapIf (·.id = sess) beat d.sessions)).emit (.spdm 0x68 [])

/-- A heartbeat missed by three periods ends the session (R516). -/
def execSessionHeartbeatMiss (sess : Nat) (s : State) : Host.Outcome State Fault Refusal :=
  s.run fun c d => d.endSess fun s => s.id = sess && s.est && s.period ≠ 0 && decide (s.last + 3 * s.period ≤ c.tmr)

/-- KEY_UPDATE: 1 renews the requester's direction, 2 both, 3 verifies; a renewed direction counts from 0 (R516). -/
def execKeyUpdate (sess op : Nat) (s : State) : Host.Outcome State Fault Refusal :=
  s.run fun _ d => d.inSess sess true fun d _ =>
    if op = 0 || 3 < op then d.spdmErr 1
    else
      let renew (s : Sess) : Sess := { s with rx := if op = 3 then s.rx else 0, tx := if op = 2 then 0 else s.tx }
      (d.putSess (mapIf (·.id = sess) renew d.sessions)).emit (.spdm 0x69 [op])

/-- END_SESSION. -/
def execEndSession (sess : Nat) (s : State) : Host.Outcome State Fault Refusal :=
  s.run fun _ d => d.inSess sess true fun d _ => (d.emit (.spdm 0x6C [])).endSess (·.id = sess)

/-! ### IDE_KM (R437) -/

/-- The sub-streams of a stream: PR, NPR and CPL of a selective stream; one of the CXL.cachemem stream (4). -/
def ideSubs (stream : Nat) : List Nat := if stream = 4 then [0] else [0, 1, 2]

/-- Has a key set been started in both directions? -/
def Dev.ideSecure (d : Dev) (stream : Nat) : Bool :=
  [0, 1].any fun k => [0, 1].all fun x => d.ideGo.contains (stream * 4 + k * 2 + x)

/-- Show a stream's state; a TDI locked to a selective stream that leaves Secure goes to ERROR (R520). -/
def Dev.ideShow (d : Dev) (stream : Nat) : Dev :=
  let on := d.ideSecure stream
  if stream = 4 then d.wr F.CXP_LSTAT_IDE_CM 0 (if on then 1 else 0)
  else
    let was := d.bitAt F.CXP_LSTAT_IDE_IO 0 stream
    let d := d.setBit F.CXP_LSTAT_IDE_IO 0 stream on
    if was && !on then
      (d.instances F.SEC_TDI_STATE).foldl (fun d f => if d.rd F.SEC_TDI_STREAM f = stream then d.tdiError f 4 else d) d
    else d

/-- IDE_KM in a session on DOE: 0 QUERY, 2 KEY_PROG of a sub-stream's key, 4 K_SET_GO, 5 K_SET_STOP of a key set in a
direction. PRESUMED (log 68). -/
def execIdeKm (sess op stream set_ dir sub : Nat) (s : State) : Host.Outcome State Fault Refusal :=
  s.run fun _ d => d.inSess sess true fun d x =>
    let key (b : Nat) : Nat := stream * 16 + set_ * 8 + dir * 4 + b
    let go := stream * 4 + set_ * 2 + dir
    if x.via ≠ 0 then d.spdmErr 7
    else if op = 0 then d.emit (.spdm 0x7E [1, 4, 1])
    else if 4 < stream || 1 < set_ || 1 < dir then d.spdmErr 1
    else match op with
      | 2 =>
        if !(ideSubs stream).contains sub then d.emit (.spdm 0x7E [3, stream, set_, dir, sub, 1])
        else { d with ideKeys := sadd d.ideKeys (key sub) }.emit (.spdm 0x7E [3, stream, set_, dir, sub, 0])
      | 4 =>
        if !(ideSubs stream).all (fun b => d.ideKeys.contains (key b)) then d.spdmErr 4
        else ({ d with ideGo := sadd d.ideGo go }.ideShow stream).emit (.spdm 0x7E [6, stream, set_, dir])
      | 5 =>
        let d := { d with ideGo := d.ideGo.filter (· ≠ go), ideKeys := d.ideKeys.filter fun k => k / 4 ≠ go }
        (d.ideShow stream).emit (.spdm 0x7E [6, stream, set_, dir])
      | _ => d.spdmErr 7

/-! ### TDISP (R518 to R521) -/

/-- A TDISP ERROR response: 4 INVALID_INTERFACE_STATE, 0x101 INVALID_INTERFACE, 0x102 INVALID_NONCE, 0x104
INVALID_DEVICE_CONFIGURATION. PRESUMED (log 68). -/
def Dev.tdiErr (d : Dev) (f code : Nat) : Dev := d.emit (.spdm 0x7E [0x7F, f, code])

/-- A TDISP request: in a session on DOE, of an existing VF. PRESUMED (log 68). -/
def Dev.tdisp (d : Dev) (sess f : Nat) (k : Dev → Dev) : Dev :=
  d.inSess sess true fun d x =>
    if x.via ≠ 0 then d.spdmErr 7 else if f = 0 || 512 < f then d.tdiErr f 0x101 else k d

/-- May function f be locked to a stream (R519)? DEDUCED (log 70). -/
def Dev.lockable (d : Dev) (f stream : Nat) : Bool :=
  d.rd F.FN_STAT_STATE f = 1 && !d.quiescing f && d.rd F.SEC_DBG_STATE 0 = 0 && stream < 4 &&
    d.bitAt F.CXP_LSTAT_IDE_IO 0 stream && d.rd F.FN_FRCTL_PLACE f = 0 && d.rd F.FN_IRQF_FABRIC f = 0 &&
    (d.ringsOf f).all fun r => d.rd F.RNG_CTL_PLACE r = 0 && d.rd F.RNG_CTL_CPLACE r = 0

/-- LOCK_INTERFACE_REQUEST (R519): the response carries the lock's nonce. -/
def execLockInterfaceRequest (sess f stream : Nat) (s : State) : Host.Outcome State Fault Refusal :=
  s.run fun _ d => d.tdisp sess f fun d =>
    if d.rd F.SEC_TDI_STATE f ≠ 0 then d.tdiErr f 4
    else if !d.lockable f stream then d.tdiErr f 0x104
    else
      let (n, d) := d.pick
      let n := n % 2 ^ 256
      let d := { d with tdiNonce := tset d.tdiNonce f n }
      ((d.wr F.SEC_TDI_STATE f 1).wr F.SEC_TDI_STREAM f stream).emit (.spdm 0x7E [0x03, f, n])

/-- START_INTERFACE_REQUEST with the lock's nonce (R518). -/
def execStartInterfaceRequest (sess f nonce : Nat) (s : State) : Host.Outcome State Fault Refusal :=
  s.run fun _ d => d.tdisp sess f fun d =>
    if d.rd F.SEC_TDI_STATE f ≠ 1 then d.tdiErr f 4
    else if tget d.tdiNonce f ≠ some nonce then d.tdiErr f 0x102
    else ({ d with tdiNonce := tdel d.tdiNonce f }.wr F.SEC_TDI_STATE f 2).emit (.spdm 0x7E [0x06, f])

/-- STOP_INTERFACE_REQUEST (R518): the function quiesces, or ends the quiesce it is in, and the TDI is then
CONFIG_UNLOCKED. DEDUCED (log 70). -/
def execStopInterfaceRequest (sess f : Nat) (s : State) : Host.Outcome State Fault Refusal :=
  s.run fun _ d => d.tdisp sess f fun d =>
    let d := if d.rd F.SEC_TDI_STATE f = 0 then d
      else
        let d := { d with tdiNonce := tdel d.tdiNonce f }
        if d.quiescing f then { d with tdiStop := sadd d.tdiStop f }
        else if d.rd F.FN_STAT_STATE f = 1 then { d with tdiStop := sadd d.tdiStop f }.requestQuiesce f 0 false
        else { d with hostDisc := d.hostDisc.filter (· ≠ f) }.wr F.SEC_TDI_STATE f 0
    d.emit (.spdm 0x7E [0x07, f])

/-- The interface report (R521): three MMIO ranges of BAR0, the third marked MSI-X, then BASE, SIZE and EPOCH of each kennel
of the function, and BASE, SIZE, rights, SRCMODE and SRCNODE of each of its windows. -/
def Dev.report (d : Dev) (f : Nat) : List Nat :=
  let knls := (d.instances F.KNL_BIND_COLLAR).filter fun k => d.rd F.KNL_BIND_COLLAR k = f && d.rd F.KNL_BIND_STATE k ≠ 0
  let wins := (d.instances F.XLT_WCTL_COLLAR).filter fun w => d.rd F.XLT_WCTL_COLLAR w = f && d.rd F.XLT_WCTL_ST w ≠ 0
  [0x0000, 0x1000, 0, 0x1000, 0x1000, 0, 0x2000, 0x2000, 1, knls.length] ++
    knls.flatMap (fun k => [d.rd F.KNL_RANGE_BASE k, d.rd F.KNL_RANGE_SIZE k, d.rd F.KNL_BIND_EPOCH k]) ++
    [wins.length] ++
    wins.flatMap fun w => [d.rd F.XLT_WBASE_BASE w, d.rd F.XLT_WCTL_SIZE w, d.rd F.XLT_WCTL_R w + 2 * d.rd F.XLT_WCTL_W w + 4 * d.rd F.XLT_WCTL_A w,
      d.rd F.XLT_WCTL_SRCMODE w, d.rd F.XLT_WCTL_SRCNODE w]

/-- GET_DEVICE_INTERFACE_REPORT, of a locked TDI. DEDUCED (log 70). -/
def execInterfaceReport (sess f : Nat) (s : State) : Host.Outcome State Fault Refusal :=
  s.run fun _ d => d.tdisp sess f fun d =>
    if d.tdiLocked f then d.emit (.spdm 0x7E ([0x04, f] ++ d.report f)) else d.tdiErr f 4

/-! ### Firmware delivery (R512, R513, R508) -/

/-- Another path holds the update claim. -/
def Dev.claimed (d : Dev) (path : Nat) : Bool := match d.claim with
  | some (p, _) => p != path
  | none => false

/-- Write image bytes to the slot that is not ACTIVE and hold the claim (R512): the slot no longer holds a valid image. DEDUCED (log 69). -/
def Dev.fwWrite (d : Dev) (c : Cx) (path off : Nat) (data : Bytes) : Dev :=
  let o := 1 - d.nvActive
  { d with bootFlash := memPut d.bootFlash (o * 2 ^ 25 + off) data, claim := some (path, c.tmr),
           nvOk := d.nvOk.filter (· ≠ o) }.otherOk

/-- Check the written slot (R513): PENDING, or ERR and the slot marked invalid. The claim ends. DEDUCED (log 69). -/
def Dev.fwCommit (d : Dev) (g : ImgSig) : Dev × Bool :=
  let o := 1 - d.nvActive
  let e := d.imgErr o g
  let d := { d with claim := none }
  if e = 0 then ({ d with nvPending := true, nvOk := sadd d.nvOk o }.fwShow, true)
  else (({ d with nvPending := false }.slotBad o e).fwShow, false)

/-- Blow fuse bits up to the target (R508): no higher than the SVN of the running image, never down. DEDUCED (log 69). -/
def Dev.svnAdvance (d : Dev) (target : Nat) : Dev × Bool :=
  if min 64 (d.rd F.SEC_SVN_RUNNING 0) < target || target < d.rd F.SEC_FUSE_FUSED 0 then (d, false)
  else ((d.wr F.SEC_FUSE_FUSED 0 target).otherOk, true)

/-! ### Debug (R528, R529) -/

/-- A debug challenge: a new nonce. -/
def Dev.dbgChallenge (d : Dev) : Dev × Nat :=
  let (n, d) := d.pick
  let n := n % 2 ^ 256
  ({ d with dbgNonce := some n }, n)

/-- The token's checks: level, nonce, certificate hash, signature. DESIGN CHOICE (log 66). -/
def Dev.tokenOk (d : Dev) (token : Bytes) (sig : Bool) : Bool :=
  token.length = 177 && (match token with
    | lvl :: rest =>
      (lvl.toNat = 1 || lvl.toNat = 2) &&
        (match d.dbgNonce with
          | some n => rest.take 32 = leBytes 32 n
          | none => false) &&
        (rest.drop 32).take 48 = sha384 (d.cert 2)
    | [] => false) && sig

/-- A debug unlock (R529): the nonce is spent; an accepted token ends TDIs, sessions and keys, then the state changes; every
SECURE link retrains and the CXL link goes down. DEDUCED (log 69). -/
def Dev.dbgUnlock (d : Dev) (c : Cx) (token : Bytes) (sig : Bool) : Dev × Bool :=
  let ok := d.tokenOk token sig
  let d := { d with dbgNonce := none }
  if !ok then (d, false)
  else
    let d := (d.tdiErrors 7).endSess fun _ => true
    let d := { d with ideKeys := [], ideGo := [] }
    let d := (d.wr F.SEC_DBG_KEYS_GONE 0 1).wr F.SEC_DBG_STATE 0 ((token.getD 0 0).toNat)
    let d : Dev := (List.range c.variant.links).foldl (fun d i =>
      if d.rd F.LNK_STAT_SECURE i = 1 then d.retrainLink c i else d) d
    let d : Dev := if d.rd F.CXP_LSTAT_UP 0 = 1 then d.linkLoss c else d
    (d, true)

/-! ### The SEC mailbox -/

/-- n bytes of SEC_MBDATA. -/
def Dev.mbData (d : Dev) (n : Nat) : Bytes :=
  ((List.range ((n + 7) / 8)).flatMap fun i => leBytes 8 (d.rd F.SEC_MBDATA_WORD i)).take n

/-- Put bytes into SEC_MBDATA. -/
def Dev.putMb (d : Dev) (b : Bytes) : Dev :=
  (List.range ((b.length + 7) / 8)).foldl (fun d i => d.wr F.SEC_MBDATA_WORD i (leNat ((b.drop (8 * i)).take 8))) d

/-- A command ends: STATUS (0 OK, 1 BAD_ARG, 2 INVALID_IMAGE, 3 SVN, 4 BUSY, 5 DENIED) and its response. -/
def Dev.mbEnd (d : Dev) (status : Nat) (resp : Bytes := []) : Dev :=
  ((d.putMb resp).wr F.SEC_MBSTAT_STATUS 0 status).wr F.SEC_MBSTAT_RLEN 0 resp.length

/-- A command submitted through SEC_MBCMD.GO: opcode, request length and ARG, the request in SEC_MBDATA; sig and img stand
for the verdicts of the engines. -/
def Dev.mbGo (d : Dev) (c : Cx) (sig : Bool) (img : ImgSig) : Dev :=
  let len := d.rd F.SEC_MBCMD_LENGTH 0
  let arg := d.rd F.SEC_MBCMD_ARG 0
  if d.rtp ≠ 1 then d
  else if 4096 < len then d.mbEnd 1
  else match d.rd F.SEC_MBCMD_OPCODE 0 with
    | 1 =>
      if d.claimed 0 then d.mbEnd 4
      else if 2 ^ 25 < 4096 * arg + len then d.mbEnd 1
      else (d.fwWrite c 0 (4096 * arg) (d.mbData len)).mbEnd 0
    | 2 =>
      if d.claimed 0 then d.mbEnd 4
      else
        let (d, ok) := d.fwCommit img
        d.mbEnd (if ok then 0 else 2)
    | 3 => if d.claimed 0 then d.mbEnd 4 else { d with claim := none }.mbEnd 0
    | 4 =>
      let (d, ok) := d.svnAdvance arg
      d.mbEnd (if ok then 0 else 3)
    | 5 => if arg = 0 || 3 < arg then d.mbEnd 1 else d.mbEnd 0 (d.cert arg)
    | 6 =>
      let (d, n) := d.dbgChallenge
      d.mbEnd 0 (leBytes 32 n)
    | 7 =>
      let (d, ok) := d.dbgUnlock c (d.mbData len) sig
      d.mbEnd (if ok then 0 else 5)
    | _ => d.mbEnd 1

/-- The request of a command is written: SEC_MBDATA, and the opcode, length and argument of SEC_MBCMD. -/
def Dev.mbAsk (d : Dev) (op arg : Nat) (req : Bytes) : Dev :=
  (((d.putMb req).wr F.SEC_MBCMD_OPCODE 0 op).wr F.SEC_MBCMD_LENGTH 0 req.length).wr F.SEC_MBCMD_ARG 0 arg

/-- PF0 software submits a command: it writes SEC_MBDATA and SEC_MBCMD, which it reaches while the port is up (R574). -/
def State.mailbox_ (s : State) (op arg : Nat) (req : Bytes) (sig : Bool) (img : ImgSig) : Host.Outcome State Fault Refusal :=
  s.run fun c d =>
    if d.rd F.CXP_LSTAT_UP 0 = 0 then d else (d.mbAsk op arg req).mbGo c sig img

/-- FW_WRITE: image bytes at a page offset of the slot (R512). -/
def execFwWrite (page : Nat) (data : Bytes) (s : State) : Host.Outcome State Fault Refusal :=
  s.mailbox_ 1 page (data.take 4096) true {}

/-- FW_COMMIT (R513). -/
def execFwCommit (img : ImgSig) (s : State) : Host.Outcome State Fault Refusal := s.mailbox_ 2 0 [] true img

/-- FW_ABORT (R512). -/
def execFwAbort (s : State) : Host.Outcome State Fault Refusal := s.mailbox_ 3 0 [] true {}

/-- An update claim without a write for 60 s ends (R512). -/
def execUpdateClaimTimeout (s : State) : Host.Outcome State Fault Refusal :=
  s.run fun c d => match d.claim with
    | some (_, t) => if c.tmr < t + 6000000000 then d else { d with claim := none }
    | none => d

/-- SVN_ADVANCE (R508). -/
def execSvnAdvance (target : Nat) (s : State) : Host.Outcome State Fault Refusal := s.mailbox_ 4 target [] true {}

/-- GET_CERT (R505). -/
def execGetCert (pos : Nat) (s : State) : Host.Outcome State Fault Refusal := s.mailbox_ 5 pos [] true {}

/-- DBG_CHALLENGE (R529). -/
def execDbgChallenge (s : State) : Host.Outcome State Fault Refusal := s.mailbox_ 6 0 [] true {}

/-- DBG_UNLOCK with a token of 177 bytes; sig is whether its signature verifies under the ROM's debug key (R529). -/
def execDbgUnlock (token : Bytes) (sig : Bool) (s : State) : Host.Outcome State Fault Refusal :=
  s.mailbox_ 7 0 (token.take 4096) sig {}

end Sys2Proof.Machine
end

