-- ==== Sys2Proof/Machine/Keeper.lean ====
section
/-! DEFINITION. Keepers and the map (spec/14, R468 to R474, R582; spec/02, R68 to R71): the log and its lead, the fetching of
records, and the application of a map epoch. Rows PROPOSE to MAP_EPOCH_APPLY. -/
namespace Sys2Proof.Machine

/-! ### The log -/

/-- The keepers in force: those of the map this keeper knows as committed, else those of the map applied. -/
def Dev.kset (d : Dev) : List Nat := match d.kp.kmap with
  | m :: _ => m.keepers
  | [] => d.map.keepers

/-- The other keepers, and the quorum (R468). DEDUCED (log 65). -/
def Dev.otherKeepers (d : Dev) : List Nat := d.kset.filter (· ≠ d.rd F.MAP_NODE_NODE)
def Dev.quorum (d : Dev) : Nat := d.kset.length / 2 + 1

/-- Does this module act as a keeper (R474)? -/
def Dev.keeps (d : Dev) : Bool := d.rd F.MAP_KEEP_KEEPER = 1 && d.rd F.MAP_NODE_VALID = 1

/-- Is it the lead? -/
def Dev.leads (d : Dev) : Bool := d.keeps && d.rd F.MAP_KEEP_LEAD = 1

/-- The term of the entry at an index, 0 before the first. -/
def Dev.termAt (d : Dev) (i : Nat) : Nat := if i = 0 then 0 else ((d.kp.log[i - 1]?).map fun e => e.term).getD 0

/-- Is a log entry a MAP entry? -/
def isMap : Change → Bool
  | .heel _ _ _ => false
  | _ => true

/-- The map epoch of a committed index: the MAP entries up to and including it (R468). -/
def Dev.epochOf (d : Dev) (i : Nat) : Nat := ((d.kp.log.take i).filter fun (e : LogEnt) => isMap e.change).length

/-- The records after a change (R472). A range reported free changes no record: its kennel was omitted before. DEDUCED (log 65). -/
def applyChange (ch : Change) (km : List MapRecs) : List MapRecs :=
  let mods (f : List ModRec → List ModRec) (m : MapRecs) : MapRecs := { m with modules := f m.modules }
  match ch with
  | .free _ _ _ | .heel _ _ _ => km
  | .omit n b s => mapIf (fun (m : MapRecs) => m.node = n)
      (fun (m : MapRecs) => { m with kennels := m.kennels.filter fun (k : KnlRec) => k.base ≠ b || k.size ≠ s }) km
  | .remove n => (km.filter fun (m : MapRecs) => m.node ≠ n).map fun (m : MapRecs) =>
      { m with modules := m.modules.filter (fun (x : ModRec) => x.node ≠ n),
               fns := m.fns.map fun (f : FnRec) => { f with nodes := f.nodes.filter (· ≠ n) } }
  | .lost n => km.map (mods (mapIf (fun (x : ModRec) => x.node = n) fun (x : ModRec) => { x with lost := true }))
  | .packFailed ns => mapIf (fun (m : MapRecs) => ns.contains m.node) (fun (m : MapRecs) => { m with kennels := [] }) km
  | .records rs => rs

/-- Show the keeper role the committed map gives this module (R471, R582). -/
def Dev.keeperRole (d : Dev) : Dev :=
  let on := d.kset.contains (d.rd F.MAP_NODE_NODE)
  let d := (d.wr F.MAP_KEEP_KEEPER 0 (if on then 1 else 0)).wr F.MAP_KEEP_KSET 0 d.kset.length
  if on then d else d.wr F.MAP_KEEP_LEAD 0 0

/-- Commit the next entry: the records change, and the lead tells every module whose records changed (R473). The members of
a heel group are told of their heel record. -/
def Dev.commitOneEntry (d : Dev) : Dev :=
  let i := d.rd F.MAP_KLOG_COMMITTED + 1
  match d.kp.log[i - 1]? with
  | none => d
  | some e =>
    let d := d.wr F.MAP_KLOG_COMMITTED 0 i
    let ep := d.epochOf i
    let old := d.kp.kmap
    let new := (applyChange e.change old).map fun (m : MapRecs) => { m with epoch := ep }
    let same (m : MapRecs) : Bool := old.any fun o => ({ o with epoch := ep } : MapRecs) = m
    let changed := (new.filter fun m => !same m).map (fun m => m.node) ++
      (old.filter fun o => !(new.any fun m => m.node = o.node)).map fun o => o.node
    let lead := d.leads
    let d := if isMap e.change then { d with kp := { d.kp with kmap := new } } else d
    let d := if !lead then d else match e.change with
      | .heel g x _ =>
        let members := ((old.flatMap fun (m : MapRecs) => m.modules).filter fun (r : ModRec) => r.group = some g).foldl (fun l (r : ModRec) => sadd l r.node) []
        members.foldl (fun d n => d.keep n (.commit i ep members (some x))) d
      | _ => changed.foldl (fun d n => d.keep n (.commit i ep changed none)) d
    if isMap e.change then d.keeperRole else d

/-- Commit entries up to an index. -/
def Dev.commitTo (d : Dev) (n : Nat) : Dev :=
  (List.range (n - d.rd F.MAP_KLOG_COMMITTED)).foldl (fun d _ => d.commitOneEntry) d

/-- The lead commits what a quorum has stored, when the last such entry is of its own term (R471). -/
def Dev.commitCheck (d : Dev) : Dev :=
  let done := d.rd F.MAP_KLOG_COMMITTED
  let stored (n : Nat) : Nat := (d.otherKeepers.filter fun k => n ≤ (tget d.kp.acks k).getD 0).length + 1
  match ((List.range (d.kp.log.length - done)).map fun j => d.kp.log.length - j).find? fun n =>
      d.quorum ≤ stored n && d.termAt n = d.rd F.MAP_KEEP_TERM with
  | some n => d.commitTo n
  | none => d

/-- Send one entry to a keeper. -/
def Dev.sendAppend (d : Dev) (n i : Nat) : Dev :=
  if i = 0 then d
  else match d.kp.log[i - 1]? with
    | some e => d.keep n (.append (d.rd F.MAP_KEEP_TERM) i (d.termAt (i - 1)) e)
    | none => d

/-- The lead stores an entry of its term and sends it to the other keepers. DEDUCED (log 65). -/
def Dev.appendNew (d : Dev) (ch : Change) : Dev :=
  let d := { d with kp := { d.kp with log := d.kp.log ++ [(⟨d.rd F.MAP_KEEP_TERM, ch⟩ : LogEnt)] } }
  (d.otherKeepers.foldl (fun d n => d.sendAppend n d.kp.log.length) d).commitCheck

/-- A keeper follows a higher term (R469). -/
def Dev.follow (d : Dev) (term : Nat) : Dev :=
  if term ≤ d.rd F.MAP_KEEP_TERM then d
  else { (d.wr F.MAP_KEEP_TERM 0 term).wr F.MAP_KEEP_LEAD 0 0 with
         kp := { d.kp with voted := none, votes := [], cand := false, matched := d.rd F.MAP_KLOG_COMMITTED } }

/-- May the lead append a change: records given whole come from a keeper's sideband and change at most one keeper (R471,
R472)? DEDUCED (log 65). -/
def Dev.acceptable (d : Dev) (src : Nat) : Change → Bool
  | .records rs =>
    let new := match rs with
      | m :: _ => m.keepers
      | [] => []
    d.kset.contains src &&
      decide ((new.filter fun n => !d.kset.contains n).length + (d.kset.filter fun n => !new.contains n).length ≤ 1)
  | _ => true

/-- PROPOSE: the lead appends; another keeper passes it to the lead it knows (R470). -/
def Dev.proposed (d : Dev) (src : Nat) (ch : Change) : Dev :=
  if !d.keeps then d
  else if d.leads then if d.acceptable src ch then d.appendNew ch else d
  else match d.kp.lead with
    | some n => if n = d.rd F.MAP_NODE_NODE then d else d.keep n (.propose ch)
    | none => d

/-- PROPOSE. DEDUCED (log 65). -/
def execPropose (src : Nat) (ch : Change) (s : State) : Host.Outcome State Fault Refusal := s.run fun _ d => d.proposed src ch

/-- APPEND: stored when the entry before it is the lead's, in place of uncommitted entries of other terms, and acknowledged;
refused otherwise (R470, R471). -/
def execAppend (src term index pterm : Nat) (e : LogEnt) (s : State) : Host.Outcome State Fault Refusal :=
  s.run fun _ d =>
    if !d.keeps || index = 0 then d
    else
      let d := d.follow term
      let now := d.rd F.MAP_KEEP_TERM
      let log := d.kp.log
      if term < now || log.length < index - 1 || d.termAt (index - 1) ≠ pterm then d.keep src (.appendAck index now false)
      else
        let there := d.termAt index = e.term && decide (index ≤ log.length)
        if !there && index ≤ d.rd F.MAP_KLOG_COMMITTED then d.keep src (.appendAck index now false)
        else
          let log := if there then log else log.take (index - 1) ++ [e]
          ({ d with kp := { d.kp with log := log, matched := max d.kp.matched index } }).keep src (.appendAck index now true)

/-- APPEND_ACK: copies are counted; a keeper behind gets its next entry, one that refused the entry before (R471). -/
def execAppendAck (src index term : Nat) (ok : Bool) (s : State) : Host.Outcome State Fault Refusal :=
  s.run fun _ d =>
    if !d.keeps then d
    else
      let d := d.follow term
      if !d.leads || !d.otherKeepers.contains src then d
      else if !ok then d.sendAppend src (index - 1)
      else
        let n := max index ((tget d.kp.acks src).getD 0)
        let d := { d with kp := { d.kp with acks := tset d.kp.acks src n } }
        (if n < d.kp.log.length then d.sendAppend src (n + 1) else d).commitCheck

/-! ### The lead -/

/-- A candidate with Q votes leads (R469): a heartbeat to the keepers, its last entry to them, and COMMIT to every module of
the region (R473). DEDUCED (log 65). -/
def Dev.becomeLead (d : Dev) (c : Cx) : Dev :=
  let me := d.rd F.MAP_NODE_NODE
  let done := d.rd F.MAP_KLOG_COMMITTED
  let d := { (d.wr F.MAP_KEEP_LEAD 0 1).wr F.MAP_KEEP_LEAD_NODE 0 me with
             kp := { d.kp with cand := false, acks := [], sent := c.tmr, lead := some me } }
  let d := d.otherKeepers.foldl (fun d n => (d.keep n (.heartbeat (d.rd F.MAP_KEEP_TERM) done)).sendAppend n d.kp.log.length) d
  let mods := match d.kp.kmap with
    | m :: _ => m.modules.foldl (fun l (r : ModRec) => sadd l r.node) []
    | [] => []
  (mods.foldl (fun d n => d.keep n (.commit done (d.epochOf done) [] none)) d).commitCheck

/-- VOTE_REQ: at most one vote a term, to a candidate whose log is as late as this keeper's (R469). -/
def execVoteReq (src term lterm lindex : Nat) (s : State) : Host.Outcome State Fault Refusal :=
  s.run fun _ d =>
    if !d.keeps then d
    else
      let d := d.follow term
      let now := d.rd F.MAP_KEEP_TERM
      let n := d.kp.log.length
      let late := decide (d.termAt n < lterm) || (lterm = d.termAt n && decide (n ≤ lindex))
      if term = now && late && (d.kp.voted = none || d.kp.voted = some src) && d.rd F.MAP_KEEP_LEAD = 0 then
        ({ d with kp := { d.kp with voted := some src } }).keep src (.vote now true)
      else d.keep src (.vote now false)

/-- VOTE. -/
def execVote (src term : Nat) (granted : Bool) (s : State) : Host.Outcome State Fault Refusal :=
  s.run fun c d =>
    if !d.keeps then d
    else
      let d := d.follow term
      if !d.kp.cand || !granted || term ≠ d.rd F.MAP_KEEP_TERM || !d.otherKeepers.contains src then d
      else
        let d := { d with kp := { d.kp with votes := sadd d.kp.votes src } }
        if d.quorum ≤ d.kp.votes.length + 1 then d.becomeLead c else d

/-- HEARTBEAT: the sender leads; the election timer starts again, and entries that match the lead's are committed as far as it
says (R469, R471, R582). -/
def execKeepHeartbeat (src term committed : Nat) (s : State) : Host.Outcome State Fault Refusal :=
  s.run fun c d =>
    if !d.keeps || term < d.rd F.MAP_KEEP_TERM then d
    else
      let d := d.follow term
      if d.rd F.MAP_KEEP_LEAD = 1 then d
      else
        let d := { d.wr F.MAP_KEEP_LEAD_NODE 0 src with
                   kp := { d.kp with heard := c.tmr, lead := some src, cand := false } }
        d.commitTo (min committed d.kp.matched)

/-- Every 5 ms the lead sends HEARTBEAT. -/
def execHeartbeatTimer (s : State) : Host.Outcome State Fault Refusal :=
  s.run fun c d =>
    if !d.leads || c.tmr < d.kp.sent + 500000 then d
    else d.otherKeepers.foldl (fun d n => d.keep n (.heartbeat (d.rd F.MAP_KEEP_TERM) (d.rd F.MAP_KLOG_COMMITTED)))
      { d with kp := { d.kp with sent := c.tmr } }

/-- No heartbeat for the keeper's random time, 50 ms at least: it stands for election in the next term (R469). -/
def execElectionTimeout (s : State) : Host.Outcome State Fault Refusal :=
  s.run fun c d =>
    if !d.keeps || d.rd F.MAP_KEEP_LEAD = 1 || c.tmr < d.kp.heard + 5000000 then d
    else
      let me := d.rd F.MAP_NODE_NODE
      let d := d.bump F.MAP_KEEP_TERM 0
      let d := { d with kp := { d.kp with voted := some me, votes := [], cand := true, heard := c.tmr,
                                          matched := d.rd F.MAP_KLOG_COMMITTED } }
      if d.quorum ≤ 1 then d.becomeLead c
      else
        let n := d.kp.log.length
        d.otherKeepers.foldl (fun d k => d.keep k (.voteReq (d.rd F.MAP_KEEP_TERM) (d.termAt n) n)) d

/-! ### Fetching records -/

/-- The order in which keepers are asked (R582). -/
def Dev.fetchOrder (d : Dev) : List Nat :=
  let l := d.kp.lead.toList
  l ++ (d.keepers.foldl sadd []).filter fun n => !l.contains n

/-- Ask a keeper for this module's records. -/
def Dev.fetchFrom (d : Dev) (c : Cx) (k : Nat) : Dev :=
  ({ d with kp := { d.kp with asked := some k, askedAt := c.tmr, fetched := c.tmr } }).keep k
    (.fetch (d.rd F.MAP_NODE_NODE) (d.rd F.MAP_EPOCH_EPOCH))

/-- FETCH, to the first keeper of the order; nothing when none is known. -/
def Dev.fetch (d : Dev) (c : Cx) : Dev := match d.fetchOrder with
  | k :: _ => if d.rd F.MAP_NODE_VALID = 1 then d.fetchFrom c k else d
  | [] => d

/-- COMMIT: the sender leads; a later map epoch is fetched, and the commit of this group's heel is acted on (R364, R473,
R582). -/
def execKeepCommit (src index epoch : Nat) (nodes : List Nat) (heel : Option Nat) (s : State) :
    Host.Outcome State Fault Refusal :=
  s.run fun c d =>
    if d.rd F.MAP_NODE_VALID = 0 then d
    else
      let d := { d.wr F.MAP_KEEP_LEAD_NODE 0 src with kp := { d.kp with lead := some src } }
      let d := if d.rd F.MAP_KEEP_KEEPER = 1 then d
        else d.wr F.MAP_KLOG_COMMITTED 0 (max index (d.rd F.MAP_KLOG_COMMITTED))
      let d := match heel with
        | some e => if nodes.contains (d.rd F.MAP_NODE_NODE) then d.heelKnown c e else d
        | none => d
      if d.rd F.MAP_EPOCH_EPOCH < epoch then d.fetch c else d

/-- FETCH: a keeper answers with the records of the latest committed epoch; a node the map does not list gets records that name
no module. -/
def execKeepFetch (src node epoch : Nat) (s : State) : Host.Outcome State Fault Refusal :=
  s.run fun _ d =>
    let _ := epoch
    if !d.keeps || d.kp.kmap.isEmpty then d
    else
      let ep := d.epochOf (d.rd F.MAP_KLOG_COMMITTED)
      d.keep src (.records ((d.kp.kmap.find? fun (m : MapRecs) => m.node = node).getD { epoch := ep }))

/-- RECORDS: a later epoch waits to be applied; the latest replaces one that waits (R69, step 1). A lost module that the map
omits takes its links down (R494). DEDUCED (log 65). -/
def execRecords (src : Nat) (recs : MapRecs) (s : State) : Host.Outcome State Fault Refusal :=
  s.run fun c d =>
    let _ := src
    let d := { d with kp := { d.kp with asked := none } }
    if d.rd F.MAP_NODE_VALID = 0 then d
    else if d.lostFor ≠ 0 then
      if recs.modules.any fun m => m.node = d.rd F.MAP_NODE_NODE then d
      else (List.range c.variant.links).foldl (fun d i => if 2 ≤ d.lstate i && d.lstate i ≤ 4 then d.linkDown i else d) { d with omitted := true }
    else
      let cur := match d.nextMap with
        | some m => max m.epoch (d.rd F.MAP_EPOCH_EPOCH)
        | none => d.rd F.MAP_EPOCH_EPOCH
      if recs.epoch ≤ cur then d
      else ({ d with nextMap := some recs }.want .mapApply).rollCheck

/-- No RECORDS within 10 ms: FETCH goes to the next keeper (R582). -/
def execRecordsTimeout (s : State) : Host.Outcome State Fault Refusal :=
  s.run fun c d => match d.kp.asked with
    | none => d
    | some k =>
      if c.tmr < d.kp.askedAt + 1000000 then d
      else match ((d.fetchOrder.dropWhile (· ≠ k)).drop 1) with
        | n :: _ => d.fetchFrom c n
        | [] => { d with kp := { d.kp with asked := none } }

/-- Every 1 s a module sends FETCH (R473). -/
def execMapFetchTimer (s : State) : Host.Outcome State Fault Refusal :=
  s.run fun c d => if c.tmr < d.kp.fetched + 100000000 then d else d.fetch c

/-- APPLIED: the lead notes it; another keeper passes it on. -/
def execApplied (src epoch : Nat) (s : State) : Host.Outcome State Fault Refusal :=
  s.run fun _ d =>
    if !d.keeps then d
    else if d.leads then { d with kp := { d.kp with applied := tset d.kp.applied src epoch } }
    else match d.kp.lead with
      | some n => if n = d.rd F.MAP_NODE_NODE then d else d.keep n (.applied epoch)
      | none => d

/-! ### Applying a map epoch (R69, R70) -/

/-- Do two ranges of GiB meet? -/
def meets (b s b' s' : Nat) : Bool := decide (b < b' + s') && decide (b' < b + s)

/-- The kennel of this module in a state with a record's base, size and collar (R68). -/
def Dev.kennelIs (d : Dev) (st : Nat) (k : KnlRec) : Option Nat :=
  (d.instances F.KNL_BIND_STATE).find? fun i =>
    d.rd F.KNL_BIND_STATE i = st && d.rd F.KNL_RANGE_BASE i = k.base && d.rd F.KNL_RANGE_SIZE i = k.size &&
      d.rd F.KNL_BIND_COLLAR i = k.collar

/-- Is entry i listed by an epoch? -/
def Dev.listedBy (d : Dev) (m : MapRecs) (i : Nat) : Bool :=
  m.kennels.any fun k => k.base = d.rd F.KNL_RANGE_BASE i && k.size = d.rd F.KNL_RANGE_SIZE i && k.collar = d.rd F.KNL_BIND_COLLAR i

/-- Does a kennel lie over a parity range of a position (R376)? -/
def overParity (m : MapRecs) (k : KnlRec) : Bool :=
  match m.modules.find? fun x => x.node = m.node with
  | some r => r.pack.isSome && (List.range (min k.size (r.k + 2))).any fun i => r.k ≤ dataIdx (r.k + 2) (k.base + i) r.pos
  | none => false

/-- Pairs of a list, each with the ones after it. -/
def anyPair (f : α → α → Bool) : List α → Bool
  | [] => false
  | x :: r => r.any (f x) || anyPair f r

/-- The cause for which an epoch is rejected (R70), in the order of MAP_STAT.CAUSE; 0 when it is valid. -/
def Dev.mapCause (d : Dev) (v : Variant) (m : MapRecs) : Nat :=
  let me := d.rd F.MAP_NODE_NODE
  let live := (d.instances F.KNL_BIND_STATE).filter fun i => d.rd F.KNL_BIND_STATE i ≠ 0
  let hits (k : KnlRec) (i : Nat) : Bool := meets k.base k.size (d.rd F.KNL_RANGE_BASE i) (d.rd F.KNL_RANGE_SIZE i)
  let bad (k : KnlRec) : Bool := (d.kennelIs 1 k).isNone && live.any fun i =>
    hits k i && (d.rd F.KNL_BIND_STATE i = 2 || !d.listedBy m i)
  let new := m.kennels.filter fun k => (d.kennelIs 1 k).isNone
  if m.node ≠ me || !(m.modules.any fun x => x.node = me) then 1
  else if m.kennels.any fun k => v.storeGiB < k.base + k.size || k.size = 0 || overParity m k then 2
  else if anyPair (fun (a b : KnlRec) => meets a.base a.size b.base b.size) m.kennels || m.kennels.any bad then 3
  else if m.kennels.any fun k => 512 < k.collar then 4
  else if 2048 < live.length + new.length then 5
  else 0

/-- The epoch is rejected (R70). -/
def Dev.rejectMap (d : Dev) (c : Cx) (m : MapRecs) (cause : Nat) : Dev :=
  let d := ((d.wr F.MAP_STAT_REJECTED 0 1).wr F.MAP_STAT_CAUSE 0 cause).wr F.MAP_STAT_REJ_EPOCH 0 m.epoch
  ({ d with nextMap := none }.fault c.tmr { type := 0x0E, cls := 3, engine := 14, w20 := m.epoch % 2 ^ 32 + 2 ^ 32 * cause }).alert 3

/-- Step 4: new kennels take the lowest FREE entries; host-bound ones are offered. A locked TDI that gains one goes to ERROR
(R520). -/
def Dev.bindKennels (d : Dev) (c : Cx) (m : MapRecs) : Dev :=
  m.kennels.foldl (fun d k =>
    if (d.kennelIs 1 k).isSome then d
    else match (List.range 2048).find? fun i => d.rd F.KNL_BIND_STATE i = 0 with
      | none => d
      | some i =>
        let d := ((d.wr F.KNL_RANGE_BASE i k.base).wr F.KNL_RANGE_SIZE i k.size).wr F.KNL_BIND_COLLAR i k.collar
        let d := ((d.wr F.KNL_BIND_STATE i 1).wr F.KNL_BIND_PHASE i 0).wr F.KNL_BIND_HOSTEXT i (if k.hostExt then 1 else 0)
        let d := (d.wr F.KNL_BIND_DCREGION i (if k.hostExt then k.dcRegion else 0)).wr F.KNL_BIND_EPOCH i m.epoch
        (if k.hostExt then d.offerExt c i else d).tdiError k.collar 2) d

/-- Routing and multicast entries of an epoch, whatever the lock (R476). -/
def Dev.loadRoutes (d : Dev) (m : MapRecs) : Dev :=
  m.routes.foldl (fun d (r : RouteRec) =>
    let b (x : Bool) : Nat := if x then 1 else 0
    if r.multicast then
      (((d.wr F.MAPM_RMASK0_LINKS_LO r.index r.lo).wr F.MAPM_RMASK1_LINKS_HI r.index r.hi).wr F.MAPM_RMASK1_LOCAL r.index
        (b r.isLocal)).wr F.MAPM_RMASK1_VALID r.index (b r.valid)
    else
      (((d.wr F.MAPR_RMASK0_LINKS_LO r.index r.lo).wr F.MAPR_RMASK1_LINKS_HI r.index r.hi).wr F.MAPR_RMASK1_LOCAL r.index
        (b r.isLocal)).wr F.MAPR_RMASK1_VALID r.index (b r.valid)) d

/-- The hosts an epoch lists: PBR ID and collar. -/
def hostsOf (m : MapRecs) : List (Nat × Nat) := m.fns.flatMap fun f => f.hosts.map fun p => (p, f.fn)

/-- Is a PBR ID listed once only (R422)? -/
def soleHost (m : MapRecs) (p : Nat) : Bool := ((hostsOf m).filter fun x => x.1 = p).length = 1

/-- Does an epoch keep the binding of an entry: it lists it, or its PBR ID is in conflict (R422)? -/
def Dev.keepsHost (d : Dev) (m : MapRecs) (i : Nat) : Bool :=
  let p := d.rd F.CXP_SPID_PBRID i
  if soleHost m p then (hostsOf m).contains (p, d.rd F.CXP_SPID_COLLAR i) else (hostsOf m).any fun x => x.1 = p

/-- Free an entry whose host an epoch omits: the host has failed (R432). -/
def Dev.dropHost (d : Dev) (c : Cx) (i : Nat) : Dev :=
  let col := d.rd F.CXP_SPID_COLLAR i
  let d := if d.rd F.CXP_SPID_FAILED i = 1 then d else d.failAgent c (.spid i)
  let d := { d with failed := d.failed.filter (· ≠ Agent.spid i) }
  let d := ((d.wr F.CXP_SPID_VALID i 0).wr F.CXP_SPID_FAILED i 0).wr F.CXP_SPID_FCAUSE i 0
  ((d.wr F.CXP_SPID_PBRID i 0).wr F.CXP_SPID_COLLAR i 0).tdiError col 2

/-- Bind a newly listed host to the lowest free entry; a listing in conflict is counted and not bound (R422). A change of a
locked TDI's hosts takes it to ERROR (R520). -/
def Dev.addHost (d : Dev) (m : MapRecs) (p f : Nat) : Dev :=
  let held (i : Nat) : Bool := d.rd F.CXP_SPID_VALID i = 1 && d.rd F.CXP_SPID_PBRID i = p && d.rd F.CXP_SPID_COLLAR i = f
  if (d.instances F.CXP_SPID_VALID).any held then d
  else if !soleHost m p then d.inc F.CXP_PCNT_MAPCONF 0
  else match (List.range 512).find? fun i => d.rd F.CXP_SPID_VALID i = 0 with
    | none => d
    | some i => (((d.wr F.CXP_SPID_PBRID i p).wr F.CXP_SPID_COLLAR i f).wr F.CXP_SPID_VALID i 1).tdiError f 2

/-- The SPID table takes the hosts of an epoch (R422, R432). -/
def Dev.loadHosts (d : Dev) (c : Cx) (m : MapRecs) : Dev :=
  let gone := (d.instances F.CXP_SPID_VALID).filter fun i => d.rd F.CXP_SPID_VALID i = 1 && !d.keepsHost m i
  let d := gone.foldl (fun d i => d.dropHost c i) d
  (hostsOf m).foldl (fun d (p, f) => d.addHost m p f) d

/-- A sharing group is about to change (R119): entries that rely on the old group are invalidated under it, and pointers outside
the new one are snooped and cleared. -/
def Dev.regroup (d : Dev) (c : Cx) (m : MapRecs) (f : Nat) : Dev :=
  let new := match m.fns.find? fun x => x.fn = f with
    | some r => if r.mcGroup.isSome then r.nodes else []
    | none => []
  let stays (a : Agent) : Bool := match a with
    | .node n => new.contains n
    | .spid i => (hostsOf m).contains (d.rd F.CXP_SPID_PBRID i, f)
  (d.dir.filter fun (_, e) => e.collar = f).foldl (fun d (k, e) =>
    let t : Txn := { line := e.line, collar := f, want := .evict, src := .home, since := c.tmr }
    if e.ovf then
      let (d, t) := d.snoopLines c t 1
      let d := { d with dir := tdel d.dir k }
      if t.snoops.isEmpty && t.group = 0 then d else { d with victims := d.victims ++ [t] }
    else
      let out := e.ptrs.filter fun a => !stays a
      let ss := out.map fun a => (⟨a, e.line, if e.owned then 2 else 0⟩ : Snoop)
      let d := (d.emits (ss.map (d.snoopOut t))).putEnt k (out.foldl (fun e a => e.drop a) e)
      if ss.isEmpty then d else { d with victims := d.victims ++ [({ t with snoops := ss } : Txn)] }) d

/-- Step 5: functions. Nodes that no function lists any more have failed (R114); changed groups are regrouped and written; a
function that is omitted quiesces (R394, R396). -/
def Dev.loadFns (d : Dev) (c : Cx) (m : MapRecs) : Dev :=
  let nodesOf (r : MapRecs) : List Nat := (r.fns.flatMap fun (f : FnRec) => f.nodes).foldl sadd []
  let gone := (nodesOf d.map).filter fun n => !(nodesOf m).contains n
  let d := gone.foldl (fun d n => d.failAgent c (.node n)) d
  let d := { d with failed := d.failed.filter fun a => match a with
    | .node n => !(nodesOf m).contains n
    | .spid _ => true }
  let fs := (d.map.fns.map (fun f => f.fn) ++ m.fns.map (fun f => f.fn)).foldl sadd []
  let d := fs.foldl (fun d f =>
    let old : Option FnRec := d.map.fns.find? fun x => x.fn = f
    let new : Option FnRec := m.fns.find? fun x => x.fn = f
    let d := if old = new then d else d.regroup c m f
    match new.bind fun r => r.mcGroup.map fun g => (g, r.nodes.length) with
    | some (g, n) => ((d.wr F.PTR_SGRP_MCGROUP f g).wr F.PTR_SGRP_MCVALID f 1).wr F.PTR_SGRP_MEMBERS f n
    | none => ((d.wr F.PTR_SGRP_MCGROUP f 0).wr F.PTR_SGRP_MCVALID f 0).wr F.PTR_SGRP_MEMBERS f 0) d
  let live := (d.instances F.FN_STAT_STATE).filter fun f => f ≠ 0 && !(m.fns.any fun x => x.fn = f)
  live.foldl (fun d f =>
    if d.quiescing f then (d.wr F.FN_STAT_PENDING_ENABLE f 0).wr F.FN_CTL_EN f 0 else d.requestQuiesce f 2 false) d

/-- Heel group and pack of an epoch (R69, R379): at once when this module is in no group, else at the next heel. An epoch that
removes a member rolls the group back; when it removes the leader, the next present member leads. DEDUCED (log 61). -/
def Dev.regroupHeel (d : Dev) (c : Cx) : Dev :=
  if !d.inGroup then d.applyGroup c
  else
    let d := { d with groupDue := true }
    let gone := d.grpNodes.filter fun n => !d.present.contains n
    if gone.isEmpty then d
    else
      let me := d.rd F.MAP_NODE_NODE
      let d := if gone.contains (d.rd F.EPC_STAT_LEADER_NODE) then
          match lowest d.present with
          | some n => (d.wr F.EPC_STAT_LEADER_NODE 0 n).wr F.EPC_STAT_LEADER 0 (if n = me then 1 else 0)
          | none => d
        else d
      if d.rd F.EPC_STAT_LEADER = 1 then d.leadRollback 3 else d

/-- The module enters service (R546, step 9): the map is applied and TIR_CTL.EN is 1; a trial image has proved itself (R514). -/
def Dev.goReady (d : Dev) (c : Cx) : Dev :=
  if d.rd F.PWR_SEQ_PHASE = 5 && d.rd F.MAP_EPOCH_EPOCH ≠ 0 && d.rd F.TIR_CTL_EN = 1 then
    (((d.wr F.PWR_SEQ_PHASE 0 6).wr F.RAS_STAT_MSTATE 0 0).wr F.PWR_SEQ_READY_MS 0 (c.tmr / 100000)).trialGood
  else d

/-- The records of an epoch come into force, and the keepers are told (R69, steps 4 to 6). -/
def Dev.mapInForce (d : Dev) (c : Cx) (m : MapRecs) : Dev :=
  let d := (((d.bindKennels c m).loadRoutes m).loadFns c m).loadHosts c m
  let d := { d with map := m, nextMap := none }
  let d := (d.wr F.MAP_EPOCH_EPOCH 0 m.epoch).regroupHeel c
  let on := m.keepers.contains (d.rd F.MAP_NODE_NODE)
  let d := if d.kp.kmap.isEmpty then
      (d.wr F.MAP_KEEP_KEEPER 0 (if on then 1 else 0)).wr F.MAP_KEEP_KSET 0 m.keepers.length
    else d.keeperRole
  d.toLead (.applied m.epoch)

/-- Steps 4 to 6 of R69: the application ends. -/
def Dev.finishMap (d : Dev) (c : Cx) (m : MapRecs) : Dev := ((d.mapInForce c m).finish .mapApply).goReady c

/-- MAP_EPOCH_APPLY: validation and the requests for revocation; then, at once or when they have run (R39), steps 4 to 6. DEDUCED (log 23). -/
def execMapEpochApply (s : State) : Host.Outcome State Fault Refusal :=
  s.run fun c d => match d.nextMap with
    | none => d
    | some m =>
      if d.runs .mapApply then
        if d.wanted.any fun t => t.prio = 4 then d else d.finishMap c m
      else if !d.canStart .mapApply then d
      else if m.epoch ≤ d.rd F.MAP_EPOCH_EPOCH then { d with nextMap := none }.supersede fun (t : Tr) => decide (t = Tr.mapApply)
      else
        let d := d.begin c .mapApply
        let cause := d.mapCause c.variant m
        if cause ≠ 0 then (d.rejectMap c m cause).finish .mapApply
        else
          let out := (d.instances F.KNL_BIND_STATE).filter fun i => d.rd F.KNL_BIND_STATE i = 1 && !d.listedBy m i
          if out.isEmpty then d.finishMap c m
          else out.foldl (fun d i => (d.want (.revoke i)).tdiError (d.rd F.KNL_BIND_COLLAR i) 2) d

end Sys2Proof.Machine
end

