-- ==== Sys2Proof/Machine/Revoke.lean ====
section
/-! DEFINITION. Revocation of a kennel (spec/02, R58 to R63): rows REVOCATION_START to KENNEL_DRAIN. -/
namespace Sys2Proof.Machine

/-- Does a store offset lie in kennel k's range? -/
def Dev.inKennel (d : Dev) (k off : Nat) : Bool :=
  decide (d.rd F.KNL_RANGE_BASE k ≤ off / 2 ^ 30) && decide (off / 2 ^ 30 < d.rd F.KNL_RANGE_BASE k + d.rd F.KNL_RANGE_SIZE k)

/-- A pending migration is cancelled (R36): its entries are freed, and its descriptor completes with REVOKED. -/
def Dev.cancelMigration (d : Dev) (ring idx : Nat) : Dev :=
  let d := d.cancelRedir fun r => r.ring = ring && r.idx = idx
  let stop (x : Nat × Thread) : Nat × Thread :=
    if x.2.ring = ring && x.2.idx = idx && x.2.park then
      (x.1, { x.2 with park := false, res := some { status := 0x13, bay := some (x.1 / 8) } })
    else x
  let d := { d with threads := d.threads.map stop }
  match d.job ring idx with
  | some j => match j.place with
    | .parked b _ _ => d.endJob ring idx { status := 0x13, bay := some b }
    | _ => d
  | none => d

/-- Step 2 of R59: every pending migration with a source or destination line in the kennel. DEDUCED (log 28). -/
def Dev.cancelMigrations (d : Dev) (k : Nat) : Dev :=
  let hits (r : Redir) : Bool := r.pending && (r.watch ++ r.dlines).any fun l => d.inKennel k (l * 64)
  ((d.redir.filter fun (_, r) => hits r).map fun (_, r) => (r.ring, r.idx)).eraseDups.foldl
    (fun d (r, i) => d.cancelMigration r i) d

/-- The map epoch that omits the kennel: the one being applied. -/
def Dev.omitEpoch (d : Dev) : Nat := match d.nextMap with
  | some m => m.epoch
  | none => d.rd F.MAP_EPOCH_EPOCH

/-- Steps 1 to 3 of R59: REVOKING at every check point, migrations cancelled, and the host told. A kennel that drains already
keeps its phase. DEDUCED (log 28). -/
def execRevocationStart (knl : Nat) (s : State) : Host.Outcome State Fault Refusal :=
  s.run fun c d =>
    let t : Tr := .revoke knl
    if !d.canStart t then d
    else if d.rd F.KNL_BIND_STATE knl = 0 then (d.begin c t).finish t
    else
      let again := d.rd F.KNL_BIND_STATE knl = 2
      let d := d.begin c t
      let d := if again then d
        else ({ d with revAt := tset d.revAt knl c.tmr }.wr F.KNL_BIND_STATE knl 2).wr F.KNL_BIND_PHASE knl 0
      let d := d.wr F.KNL_BIND_EPOCH knl d.omitEpoch
      let d := d.cancelMigrations knl
      (if d.rd F.KNL_BIND_HOSTEXT knl = 1 then d.forceExt c knl else d).finish t

/-- Steps 4 and 5: with nothing in flight every copy is invalidated; when none is left the kennel enters SCRUB. -/
def execRevocationDrainEnd (knl : Nat) (s : State) : Host.Outcome State Fault Refusal :=
  s.run fun c d =>
    if d.rd F.KNL_BIND_STATE knl ≠ 2 || d.rd F.KNL_BIND_PHASE knl ≠ 0 || d.rd F.KNL_INFLT_COUNT knl ≠ 0 then d
    else
      let inn (l : Nat) : Bool := d.inKennel knl (l * 64)
      let d := { d with abuf := d.abuf.filter fun l => !inn l }
      let d := (d.dir.filter fun (_, e) => inn e.line && !d.busy e.line).foldl (fun d (x, e) =>
        let t : Txn := { line := e.line, collar := e.collar, want := .evict, src := .home, since := c.tmr }
        let (d, t) := d.snoopLines c t 1
        let d := { d with dir := tdel d.dir x }
        if t.snoops.isEmpty && t.group = 0 then d else { d with victims := d.victims ++ [t] }) d
      if d.dir.any (fun (_, e) => inn e.line) || (d.trackers ++ d.victims).any (fun t => inn t.line) then d
      else { d with revAt := tdel d.revAt knl }.wr F.KNL_BIND_PHASE knl 1

/-! ### The scrub (steps 6 and 7) -/

/-- Pages of the range with a byte that is not zero, a poisoned line or an undo entry. -/
def Dev.scrubPages (d : Dev) (k : Nat) : List Nat :=
  let ps := (d.mem.map fun (a, _) => a / 4096) ++ d.poison.map (fun l => l / 64) ++ d.undo.map fun u => u.page
  (ps.filter fun p => d.inKennel k (p * 4096)).eraseDups

/-- The undo of a page before the scrub clears it (R62, R369): its entry of this epoch is marked SCRUBBED. -/
def Dev.scrubUndo (d : Dev) (c : Cx) (page : Nat) : Dev × Bool :=
  let e := d.rd F.EPC_EPOCH_EPOCH
  let (d, ok) := d.capture c page e
  ({ d with undo := mapIf (fun u => u.page = page && u.epoch = e) (fun u => { u with scrubbed := true }) d.undo }, ok)

/-- The undo of pages, in order; false when one finds no frame (R373). DEDUCED (log 28). -/
def Dev.scrubUndos (d : Dev) (c : Cx) : List Nat → Dev × Bool
  | [] => (d, true)
  | p :: r =>
    let (d, ok) := d.scrubUndo c p
    if ok then Dev.scrubUndos d c r else (d, false)

/-- An entry of the tier tensor table goes: its units that no entry pins any longer leave the pinned region. -/
def Dev.dropTens (d : Dev) (v : Variant) (n : Nat) (e : TensEnt) : Dev :=
  let d := { d with tens := tdel d.tens n }
  if e.shadow then d
  else (fromRanges e.ranges).foldl (fun d u => match tget d.pins u with
    | some p => if 1 < p.pins then { d with pins := tset d.pins u { p with pins := p.pins - 1 } } else (d.unpinUnit v u p).1
    | none => d) d

/-- Step 6: the contents of the range are zero, in every tier, and its flash units unmapped (R60). -/
def Dev.clearRange (d : Dev) (v : Variant) (k : Nat) : Dev :=
  let a := d.rd F.KNL_RANGE_BASE k * 2 ^ 30
  let n := d.rd F.KNL_RANGE_SIZE k * 2 ^ 30
  let unit (u : Nat) : Bool := d.inKennel k (u * 65536)
  let page (p : Nat) : Bool := d.inKennel k (p * 4096)
  let ch (d : Dev) (u : Nat) : Nat := d.channelOf v (u * 65536)
  let old := (d.fmap.filter fun (u, _) => unit u).filterMap fun (u, h) => match h with
    | .flash s cp => some (u, s, cp)
    | .pinned => (((tget d.pins u).bind fun p => p.fcopy)).map fun (s, cp) => (u, s, cp)
  let d := old.foldl (fun d (u, s, cp) => d.dropSlot (ch d u) (some (s, cp))) d
  let d := (d.progs.filter fun p => unit p.unit).foldl (fun d p =>
    { d with stale := tset d.stale (ch d p.unit) ((tget d.stale (ch d p.unit)).getD [] ++ [p.slot]) }) d
  let d := (d.fills.filter fun f => page f.page && !f.reb).foldl (fun d f => d.dec F.FLS_QUEUE_QUEUED (d.channelOf v (f.page * 4096)) f.cws) d
  { d with
    mem := memClear d.mem a n, poison := d.poison.filter (fun l => !d.inKennel k (l * 64)),
    flash := memClear d.flash a n, fmap := d.fmap.filter (fun (u, _) => !unit u),
    pins := d.pins.filter (fun (u, _) => !unit u), progs := d.progs.filter (fun (p : Prog) => !unit p.unit),
    lc := d.lc.filter (fun (w : LcWay) => !page w.page), fills := d.fills.filter (fun (f : Fill) => !page f.page),
    bmCache := d.bmCache.filter (fun u => !unit u),
    tens := d.tens.map fun (i, e) =>
      (i, if e.shadow then e else { e with ranges := toRanges ((fromRanges e.ranges).filter fun u => !unit u) }) }

/-- Step 7: the windows whose range lies in the kennel are FREE, and an XLATE_INVAL that closes one completes. -/
def Dev.freeWindows (d : Dev) (k : Nat) : Dev :=
  let ws := (d.instances F.XLT_WCTL_ST).filter fun w =>
    d.rd F.XLT_WCTL_ST w ≠ 0 && d.inKennel k (d.rd F.XLT_WBASE_BASE w * 4096)
  ws.foldl (fun d w =>
    let d := match d.closing.find? fun (x, _, _) => x = w with
      | some (_, r, i) => { d with closing := d.closing.filter fun (x, _, _) => x ≠ w }.endJob r i { status := 0 }
      | none => d
    [F.XLT_WBASE_BASE, F.XLT_WCTL_SIZE, F.XLT_WCTL_COLLAR, F.XLT_WCTL_R, F.XLT_WCTL_W, F.XLT_WCTL_A, F.XLT_WCTL_SRCMODE,
      F.XLT_WCTL_SRCNODE, F.XLT_WCTL_ST].foldl (fun d f => d.wr f w f.rst) d) d

/-- Step 7: the kennel's quotas return to free. -/
def Dev.freeQuotas (d : Dev) (k : Nat) : Dev :=
  [F.TIR_KPIN_QUOTA, F.TIR_KLC_SHARE, F.TIR_KSHD_QUOTA, F.TIR_KUNDO_QUOTA, F.TIR_KFRATE_RATE, F.TIR_KFRATE_BURST,
    F.TIR_KFBAL_BALANCE].foldl (fun d f => d.wr f k f.rst) { d with budFrac := tdel d.budFrac k }

/-- Steps 6 and 7: tiers released, contents zero, windows and quotas freed, FREE, and the range reported. A page whose undo
finds no frame stops the scrub, which starts again after the rollback (R62, R373). DEDUCED (log 28). -/
def execScrubEnd (knl : Nat) (s : State) : Host.Outcome State Fault Refusal :=
  s.run fun c d =>
    if d.rd F.KNL_BIND_STATE knl ≠ 2 || d.rd F.KNL_BIND_PHASE knl ≠ 1 || 2 ≤ d.hold then d
    else
      let (d, ok) := d.scrubUndos c (d.scrubPages knl)
      if !ok then d
      else
        let d := (d.tens.filter fun (_, e) => e.knl = some knl || d.inKennel knl e.hdr).foldl (fun d (n, e) =>
          d.dropTens c.variant n e) d
        let d := ((d.clearRange c.variant knl).freeWindows knl).freeQuotas knl
        let base := d.rd F.KNL_RANGE_BASE knl
        let size := d.rd F.KNL_RANGE_SIZE knl
        let col := d.rd F.KNL_BIND_COLLAR knl
        let d := ((d.wr F.KNL_BIND_STATE knl 0).wr F.KNL_BIND_PHASE knl 0).wr F.KNL_RANGE_SIZE knl 0
        let d := d.wr F.KNL_BIND_EPOCH knl (d.rd F.MAP_EPOCH_EPOCH)
        let last := !(d.instances F.KNL_BIND_STATE).any fun i => d.rd F.KNL_BIND_STATE i ≠ 0 && d.rd F.KNL_BIND_COLLAR i = col
        let d := if last then { d with redir := d.redir.filter fun (_, r) => r.collar ≠ col } else d
        d.propose (.free (d.rd F.MAP_NODE_NODE) base size)

/-- A drain that is not done 500 ms after step 1 (R61): KENNEL_DRAIN, and a module reset. DEDUCED (log 28). -/
def execKennelDrain (knl : Nat) (s : State) : Host.Outcome State Fault Refusal :=
  s.run fun c d => match tget d.revAt knl with
    | none => d
    | some t =>
      let n := d.rd F.KNL_INFLT_COUNT knl
      if d.rd F.KNL_BIND_STATE knl ≠ 2 || d.rd F.KNL_BIND_PHASE knl ≠ 0 || n = 0 || c.tmr < t + 50000000 then d
      else ({ d with revAt := tdel d.revAt knl }.fault c.tmr { type := 0x0F, cls := 4, w20 := knl, w28 := n }).requestReset c 2

end Sys2Proof.Machine
end

