-- ==== Sys2Proof/Machine/Fence.lean ====
section
/-! DEFINITION. Fencing, self-tests and power domains (spec/15, R496 to R499; spec/17, R534 to R536): rows FENCE_AND_TEST,
RETURN, SELF_TEST_END, DOMAIN_SWITCH, DOMAIN_DRAIN_END and DOMAIN_SWITCH_ON_END. -/
namespace Sys2Proof.Machine

/-- The module reset that runs. -/
def Dev.resetTr (d : Dev) : Option Tr := (d.running.find? fun r => r.tr.prio = 1).map fun r => r.tr

/-- Requests that waited go to their homes again: one for each line that is free now (R78). -/
def Dev.pumpAll (d : Dev) (c : Cx) : Dev := (d.conflict.map fun t => t.line).foldl (fun d l => d.pump c l) d

/-- Stop dispatch to a bay: its queued descriptors return to the ring manager, and running threads reach DONE (R193,
self-test row). -/
def Dev.quietBay (d : Dev) (b : Nat) : Dev := (d.setBit F.RAS_FMASK_BAYS 0 b true).requeue b

/-! ### RAS_FENCE (R496) -/

/-- Is an instance of a kind present? -/
def fencePresent (v : Variant) (kind inst : Nat) : Bool :=
  match kind with
  | 0 => inst < 32
  | 1 => inst < v.links
  | 2 => inst < v.channels
  | 3 => inst < 16
  | _ => false

/-- Is the operation to fence refused: the last usable bay, a slice whose partner is fenced, a second flash channel? DEDUCED (log 79). -/
def Dev.fenceRefused (d : Dev) (kind inst : Nat) : Bool :=
  match kind with
  | 0 => !(List.range 32).any fun b => b ≠ inst && d.usable b
  | 2 => d.rd F.RAS_FLMASK_FLASH ≠ 0 && !d.bitAt F.RAS_FLMASK_FLASH 0 inst
  | 3 => d.bitAt F.RAS_FMASK_SLICES 0 (inst ^^^ 1)
  | _ => false

/-- Fence an instance for its test (R497). -/
def Dev.fenceFor (d : Dev) (c : Cx) (kind inst : Nat) : Dev :=
  match kind with
  | 0 => d.quietBay inst
  | 1 => d.retireLink c inst false
  | 2 => d.setBit F.RAS_FLMASK_FLASH 0 inst true
  | _ => d.fenceSlice c inst

/-- Put an instance back into service (R497, R498, R443). -/
def Dev.returnTo (d : Dev) (c : Cx) (kind inst : Nat) : Dev :=
  let d := { d with lasting := d.lasting.filter (· ≠ kind * 128 + inst) }
  match kind with
  | 0 => d.setBit F.RAS_FMASK_BAYS 0 inst false
  | 1 => if d.lstate inst = 5 then d.linkTo inst 1 else d
  | 2 => (d.setBit F.RAS_FLMASK_FLASH 0 inst false).pumpAll c
  | _ => (d.setBit F.RAS_FMASK_SLICES 0 inst false).pumpAll c

/-- A RETURN record (R486): 1 pass, 2 fail. -/
def Dev.returnRecord (d : Dev) (c : Cx) (kind inst res : Nat) : Dev :=
  d.fault c.tmr { type := 0x13, cls := 3, w20 := kind + 2 ^ 3 * inst, w28 := res }

/-- A write of RAS_FENCE: ignored while BUSY, refused with RESULT = 3, or carried out. A return of a resource fenced for a
lasting fault runs the test first. DEDUCED (log 79). -/
def Dev.rasFence (d : Dev) (c : Cx) (kind inst op : Nat) : Dev :=
  if d.rd F.RAS_FENCE_BUSY 0 = 1 then d
  else
    let d := (d.wr F.RAS_FENCE_KIND 0 kind).wr F.RAS_FENCE_INSTANCE 0 inst
    if op = 0 || op = 3 then d
    else if !fencePresent c.variant kind inst || (op = 1 && d.fenceRefused kind inst) then d.wr F.RAS_FENCE_RESULT 0 3
    else if op = 1 then
      { (d.fenceFor c kind inst).wr F.RAS_FENCE_BUSY 0 1 with fence := some (kind, inst, 1) }
    else if d.lasting.contains (kind * 128 + inst) then
      { d.wr F.RAS_FENCE_BUSY 0 1 with fence := some (kind, inst, 2) }
    else ((d.returnTo c kind inst).wr F.RAS_FENCE_RESULT 0 1).returnRecord c kind inst 1

/-- RAS_FENCE with OP = 1. DEDUCED (log 79). -/
def execFenceAndTest (kind inst : Nat) (s : State) : Host.Outcome State Fault Refusal :=
  s.run fun c d => if d.pf0Up then d.rasFence c (kind % 8) (inst % 128) 1 else d

/-- RAS_FENCE with OP = 2. DEDUCED (log 79). -/
def execReturn (kind inst : Nat) (s : State) : Host.Outcome State Fault Refusal :=
  s.run fun c d => if d.pf0Up then d.rasFence c (kind % 8) (inst % 128) 2 else d

/-- Has a fenced instance no work left, so that its test runs? -/
def Dev.testable (d : Dev) (c : Cx) (kind inst : Nat) : Bool :=
  match kind with
  | 0 => (d.threadsOf inst).isEmpty
  | 1 => d.lstate inst = 5
  | 2 => true
  | _ =>
    let mine (l : Nat) : Bool := d.sliceOf c.variant (l * 64) = inst
    !(d.trackers.any fun t => mine t.line) && !(d.victims.any fun t => mine t.line)

/-- The self-test ends (R496, R497): a fence writes a FENCE record, a return a RETURN record; a resource fenced for a lasting
fault returns only when the test passes. DEDUCED (log 79). -/
def execSelfTestEnd (pass : Bool) (s : State) : Host.Outcome State Fault Refusal :=
  s.run fun c d => match d.fence with
    | none => d
    | some (kind, inst, op) =>
      if !d.testable c kind inst then d
      else
        let res := if pass then 1 else 2
        let d := ({ d with fence := none }.wr F.RAS_FENCE_BUSY 0 0).wr F.RAS_FENCE_RESULT 0 res
        if op = 1 then d.fenceRecord c kind inst (d.lasting.contains (kind * 128 + inst))
        else (if pass then d.returnTo c kind inst else d).returnRecord c kind inst res

/-! ### Domains (R534 to R536) -/

/-- Is a domain's resource present (R3, R5)? -/
def domPresent (v : Variant) (k : Nat) : Bool :=
  if k < 32 then true
  else if k < 40 then k - 32 < v.stacks
  else if k < 64 then 4 * (k - 40) < v.links
  else if k < 80 then 2 * (k - 64) < v.channels
  else k < 113

/-- PWR_DCTL.STATE. -/
def Dev.domState (d : Dev) (k : Nat) : Nat := d.rd F.PWR_DCTL_STATE k

/-- The condition of R535 to switch a domain off: 0 met, else the code of PWR_DCTL.ERR. DEDUCED (log 80). -/
def Dev.offErr (d : Dev) (k : Nat) : Nat :=
  let need (ok : Bool) : Nat := if ok then 0 else 2
  if k < 32 then need ((List.range 32).any fun b => b ≠ k && d.usable b)
  else if k < 40 then need (d.rd F.TIR_CTL_EN = 0)
  else if k < 64 then 0
  else if k < 80 then need (d.rd F.TIR_CTL_EN = 0)
  else if k < 96 then need (d.bitAt F.RAS_FMASK_SLICES 0 (k - 80))
  else if k < 100 then need (d.domState (96 + ((k - 96) ^^^ 1)) = 1 && !d.bitAt F.RAS_FMASK_WALKERS 0 ((k - 96) ^^^ 1))
  else if k < 108 then need ((List.range 4).all fun i => d.domState (4 * (k - 100) + i) = 0)
  else if k = 109 then 0
  else 1

/-- What an SRAM of a bay held is gone. -/
def Dev.clearBay (d : Dev) (b : Nat) : Dev :=
  let mine (k : Nat) : Bool := k / 8 = b
  { d with
    scratch := d.scratch.filter (fun (a, _) => !mine (a / 524288)), pwin := d.pwin.filter (fun (a, _) => !mine (a / 2 ^ 40)),
    vregs := d.vregs.filter (fun (a, _) => !mine (a / 32768)), trace := d.trace.filter (fun (a, _) => a / 1024 ≠ b),
    comb := tdel d.comb b, sketch := d.sketch.filter (fun (a, _) => a / 256 ≠ b),
    bayTlb := d.bayTlb.filter (fun (a, _) => a / 512 ≠ b), scrOwner := d.scrOwner.filter (fun (a, _) => !mine a) }

/-- The contents of a stack are lost (R535): lines of it that only DRAM held are poisoned, pre-images and shadows are gone. DEDUCED (log 80). -/
def Dev.loseStack (d : Dev) (v : Variant) (st : Nat) : Dev :=
  let pinned := d.pins.flatMap fun (u, p) => ((List.range 16).filter fun i => bit p.dirty i).map fun i => 16 * u + i
  let pages := pinned ++ (d.lc.filter fun w => w.dirty).map fun w => w.page
  let lines := pages.flatMap fun p => ((List.range 64).map fun i => p * 64 + i).filter fun l => d.stackOf v (l * 64) = st
  let d := lines.foldl (fun d l => d.mark l) d
  { d with undo := d.undo.map (fun (u : Undo) => if u.zero then u else { u with lost := true }),
           tens := d.tens.filter (fun (_, e) => !e.shadow) }

/-- Switch a domain off (R535): a bay, and a link group with links that are UP, drain first. DEDUCED (log 80). -/
def Dev.switchOff (d : Dev) (c : Cx) (k : Nat) : Dev :=
  let off (d : Dev) : Dev := d.wr F.PWR_DCTL_STATE k 0
  if k < 32 then (d.wr F.PWR_DCTL_STATE k 2).requeue k
  else if k < 40 then off (d.loseStack c.variant (k - 32))
  else if k < 64 then
    let is := (List.range 4).map fun i => 4 * (k - 40) + i
    let d := (is.filter fun i => d.lstate i ≠ 4 && d.lstate i ≠ 0).foldl (fun d i => d.linkOff i) d
    let ups := is.filter fun i => d.lstate i = 4
    let d := ups.foldl (fun d i => (d.retireLink c i false).modLk i fun l => { l with quiet := true }) d
    if ups.isEmpty then off d else d.wr F.PWR_DCTL_STATE k 2
  else if k < 96 then off d
  else if k < 100 then off (d.fenceWalkers (k - 96))
  else if k < 108 then off ((d.wr F.SHP_CLSTAT_LOADED (k - 100) 0).wr F.SHP_CLSTAT_TABLE_ID (k - 100) 0)
  else if k = 109 then off (if d.rd F.CXP_LSTAT_UP 0 = 1 then d.linkLoss c else d)
  else d

/-- The power sequencer carries out one switch at a time, in the order of the writes; none during a module reset (R536). -/
def Dev.pumpSwitch (d : Dev) (c : Cx) : Nat → Dev
  | 0 => d
  | n + 1 =>
    let turning := (d.instances F.PWR_DCTL_STATE).any fun k => 2 ≤ d.domState k
    if turning || d.resetTr.isSome then d
    else match d.swQ with
      | [] => d
      | (k, on) :: r =>
        let d := { d with swQ := r }
        if on then if d.domState k = 0 then d.wr F.PWR_DCTL_STATE k 3 else Dev.pumpSwitch d c n
        else if d.domState k = 1 then Dev.pumpSwitch (d.switchOff c k) c n
        else Dev.pumpSwitch d c n

/-- A write of PWR_DCTL.REQ: ignored for an absent resource, refused with ERR when R535 does not allow it; else it takes its
turn, in place of one of the same domain that waits. DEDUCED (log 80). -/
def Dev.domainWrite (d : Dev) (c : Cx) (k : Nat) (on : Bool) : Dev :=
  if 113 ≤ k || !domPresent c.variant k then d
  else if k = 108 || 110 ≤ k then if on then d else d.wr F.PWR_DCTL_ERR k 1
  else
    let err := if on || d.rd F.PWR_DCTL_REQ k = 0 then 0 else d.offErr k
    if err ≠ 0 then d.wr F.PWR_DCTL_ERR k err
    else
      let d := { d.wr F.PWR_DCTL_REQ k (if on then 1 else 0) with swQ := d.swQ.filter (fun (x : Nat × Bool) => x.1 ≠ k) ++ [(k, on)] }
      d.pumpSwitch c d.swQ.length

/-- PWR_DCTL.REQ (R535). DEDUCED (log 80). -/
def execDomainSwitch (dom : Nat) (on : Bool) (s : State) : Host.Outcome State Fault Refusal :=
  s.run fun c d => if d.pf0Up then d.domainWrite c dom on else d

/-- A DRAINING bay without a thread or a combining segment, or a DRAINING link group whose links are OFF, is switched off. -/
def execDomainDrainEnd (dom : Nat) (s : State) : Host.Outcome State Fault Refusal :=
  s.run fun c d =>
    if d.domState dom ≠ 2 then d
    else
      let idle := if dom < 32 then (d.threadsOf dom).isEmpty && ((tget d.comb dom).getD []).isEmpty
        else (List.range 4).all fun i => d.lstate (4 * (dom - 40) + i) = 0
      if !idle then d
      else
        let d := (if dom < 32 then d.clearBay dom else d).wr F.PWR_DCTL_STATE dom 0
        d.pumpSwitch c d.swQ.length

/-- A STARTING domain is on (R535). -/
def execDomainSwitchOnEnd (dom : Nat) (s : State) : Host.Outcome State Fault Refusal :=
  s.run fun c d =>
    if d.domState dom ≠ 3 then d
    else
      let d := d.wr F.PWR_DCTL_STATE dom 1
      let d := if dom < 32 then d.clearBay dom
        else if 40 ≤ dom && dom < 64 then (List.range 4).foldl (fun d i => d.linkDown (4 * (dom - 40) + i)) d
        else if 80 ≤ dom && dom < 96 then d.setBit F.RAS_FMASK_SLICES 0 (dom - 80) true
        else if 96 ≤ dom && dom < 100 then d.setBit F.RAS_FMASK_WALKERS 0 (dom - 96) false
        else if 100 ≤ dom && dom < 108 then d.loadCluster d.tableId (dom - 100)
        else d
      d.pumpSwitch c d.swQ.length

end Sys2Proof.Machine
end

