-- ==== Sys2Proof/Machine/Reset.lean ====
section
/-! DEFINITION. Module reset (spec/15, R489 to R494; R40, R403, R382, R361, R117): rows MODULE_RESET to RESET_PIN. One
command does the steps that end in time; the next command goes on. -/
namespace Sys2Proof.Machine

/-- The PLLs of a module (R542). -/
def plls (v : Variant) : Nat :=
  3 + (2 ^ v.stacks - 1) * 2 ^ 2 + (2 ^ v.dies - 1) * 2 ^ 10 + (2 ^ v.dies - 1) * 2 ^ 14 + 2 ^ 18 + 2 ^ 19

/-- Does a transition superseded by the reset stop ring r (R403)? -/
def Dev.stopsRing (d : Dev) (r : Nat) : Bool :=
  d.wanted.any fun t => match t with
    | .ringReset x => x = r
    | .quiesce f => d.ringFn r = f && d.rd F.RNG_BIND_BOUND (r / 8 * 8) = 1
    | _ => false

/-- The module's epoch number of the lost epoch; 0 outside a group (R361, R381). -/
def Dev.lostNow (d : Dev) : Nat := d.shipE.getD (d.rd F.EPC_EPOCH_EPOCH)

/-- Outside a group a ring resumes at the oldest descriptor the reset abandoned (R361). DEDUCED (log 25). -/
def Dev.abandoned (d : Dev) (r : Nat) : Nat :=
  match d.jobs.find? fun j => j.ring = r && j.place = .replay with
  | some j => j.idx
  | none => d.rd F.RNG_PTR_FETCH r

/-- Step 1: what runs or waits is superseded (R40), the rollback of the group is requested, fetching and dispatch stop and
threads are abandoned. Rings in a reset or a quiesce get no REPLAY (R403). -/
def Dev.resetStep1 (d : Dev) (c : Cx) (t : Tr) : Dev :=
  let cause := match t with
    | .moduleReset x => x
    | _ => 0
  let d := d.tdiErrors 6
  let all := (d.running.map fun r => r.tr) ++ d.wanted
  let kept := (all.filter fun (x : Tr) => decide (3 < x.prio)).eraseDups
  let d := { d with running := d.running.filter (fun r => r.tr = t), wanted := kept,
                    resetTimes := (d.resetTimes.filter fun x => c.tmr < x + 360000000000) ++ [c.tmr] }
  let d := ((d.wr F.RAS_STAT_MSTATE 0 1).wr F.RAS_STAT_CAUSE 0 cause).bump F.RAS_STAT_RESETS 0
  let d := if d.inGroup then d.askRollback c 1 else d
  let d := (d.jobs.filter fun j => d.stopsRing j.ring).foldl (fun d j => d.dropJob c j) d
  let d := (d.waitReplay d.lostNow).dropEngines (d.rd F.EPC_LAST_LAST)
  let d := if d.inGroup then d
    else { d with replayIdx := d.replayIdx.map fun (r, _) => (r, d.abandoned r) }
  (d.replayIdx.filter fun (r, _) => d.stopsRing r).foldl (fun d (r, _) =>
    { d.setHold r 1 false with replayIdx := tdel d.replayIdx r }) d

/-- Step 3, registers: the counts of requests in flight, the generation and the counters that a module reset restarts, and the
balances of every leash (R57, R145, R146, R415). Every PLL locks again (R544). DEDUCED (log 25). -/
def Dev.resetRegs (d : Dev) (v : Variant) : Dev :=
  let zero (d : Dev) (f : Fld) : Dev := (d.instances f).foldl (fun d i => d.wr f i f.rst) d
  let d := [F.KNL_INFLT_COUNT, F.XLT_WINFLT_COUNT, F.XLT_GEN_GEN, F.PTR_ASEQ_COUNT, F.SHP_STEPS_COUNT, F.FLS_QUEUE_QUEUED,
    F.LSHF_TOK_BAL, F.LSHF_TOK_FRAC, F.LSHS_TOK_BAL, F.LSHS_TOK_FRAC, F.LSHP_TOK_BAL, F.LSHP_TOK_FRAC, F.SHP_CLSTAT_LOADED,
    F.SHP_CLSTAT_TABLE_ID, F.SHP_TRPTR_NEXT, F.SHP_TRPTR_WRAPPED, F.SHP_TRPTR_STOPPED].foldl zero d
  let d := ((d.instances F.XLT_WCTL_ST).filter fun w => d.rd F.XLT_WCTL_ST w = 2).foldl (fun d w => d.wr F.XLT_WCTL_ST w 0) d
  d.wr F.CLK_STAT_LOCK 0 (plls v)

/-- What the port, the interrupts and the root of trust's transports forget. DEDUCED (log 25). -/
def Dev.resetPort (d : Dev) : Dev :=
  let d := { d with msixCtl := [], pba := [], vfEnable := false, evPolicy := [0, 0, 0, 0, 0] }
  let d := { d with cxlTime := none, irqP := [], irqT := [] }
  { d with spdmConn := [0, 0], dbgNonce := none, claim := none }.endSess fun _ => true

/-- Step 3, links and the CXL port: traffic and keys are gone; the port's link goes down and the PCIe configuration state is
reset (R420, R438); every session ends (R516). -/
def Dev.resetPorts (d : Dev) (v : Variant) : Dev :=
  let quiet : Dev := { d with lnk := d.lnk.map fun (i, l) => (i, { l with txq := [] }) }
  let d := (List.range v.links).foldl (fun d i =>
    if 2 ≤ d.lstate i && d.lstate i ≤ 4 && !(d.lk i).retiring then d.linkDown i else d) quiet
  let d := (List.range 513).foldl (fun d f => (List.range (d.rd F.FN_VEC_COUNT f)).foldl (fun d x =>
    let w := d.msixWord f x 3
    if bit w 0 then d else { d with msix := tset d.msix ((64 * f + x) * 4 + 3) (w + 1) }) d) d
  let d := d.resetPort
  if d.rd F.CXP_LSTAT_UP 0 = 1 then d.cxlDown else d

/-- Step 3: logic is reset but for what R491 keeps. Requests in progress are abandoned (R146), translations and redirects in
progress go (R145, R291), a draining revocation resumes at step 4 of R59 (R62). -/
def Dev.resetStep3 (d : Dev) (v : Variant) : Dev :=
  let d := (d.resetRegs v).dropXlate
  let heard : Tbl Nat := d.beats.map fun (x : Nat × Nat) => (x.1, d.beatAt)
  let d := { d with trackers := [], conflict := [], victims := [], held := [], portHeld := [], answers := [] }
  let d := { d with abuf := [], fills := [], reqs := [], deadTags := [], closing := [], bmCache := [] }
  let d := { d with vregs := [], scrOwner := [], trace := [], deficit := [], visited := [], walkTurn := [] }
  let d := { d with heelHold := false, heelLead := none, heelAsked := false, heelStep := 0 }
  let d := { d with rebMine := none, rebGot := [], beats := heard, missed := [], revAt := [] }
  let d := { d with kp := { d.kp with lead := none, cand := false, votes := [], asked := none } }
  ((d.resetPorts v).redrain).wr F.MAP_KEEP_LEAD 0 0

/-- Step 4: the RTP runs a PENDING image as a trial, or the ACTIVE one again when its firmware no longer matches its
measurement, and loads every powered cluster (R514, R215). False: no image runs. -/
def Dev.resetStep4 (d : Dev) (sigs : ImgSig × ImgSig) (intact : Bool) : Dev × Bool :=
  let (d, ok) := if d.nvPending then d.rtpBoot sigs
    else if intact then (d, true)
    else d.bootFrom d.nvActive false sigs
  if ok then (d.loadSteps, true) else (d, false)

/-- Recall every modified line and invalidate every copy of a line that is not busy (R117). -/
def Dev.recallEvery (d : Dev) (c : Cx) : Dev :=
  let free := d.dir.filter fun (_, e) => !d.busy e.line
  let d := free.foldl (fun d (_, e) =>
    let t : Txn := { line := e.line, collar := e.collar, want := .evict, src := .home, since := c.tmr }
    let (d, t) := d.snoopLines c t 1
    if t.snoops.isEmpty && t.group = 0 then d else { d with victims := d.victims ++ [t] }) { d with abuf := [] }
  { d with dir := d.dir.filter fun (k, _) => !(free.any fun (j, _) => j = k) }

/-- Step 8: every copy of the store is invalidated. In a group the pages go back to the last committed heel and rings wait for
RESUME (R382); outside one, modified data is kept (R117). DEDUCED (log 26). -/
def Dev.resetStep8 (d : Dev) (c : Cx) (lost : List (Nat × Option Bytes)) : Dev :=
  if d.inGroup then
    let d := ((d.dropCopies c).restorePages c lost).restoreShadows (d.rd F.EPC_LAST_LAST)
    ((d.wr F.EPC_STAT_PHASE 0 4).wr F.EPC_EPOCH_WAIT 0 1).wr F.EPC_STAT_CAUSE 0 1 |>.inc F.EPC_CNT_ROLLBACKS 0
  else
    { d with hold := 3 }.recallEvery c

/-- Ring resets and quiesces count as complete when the reset ends (R40, R403); revocations and map applications start anew. -/
def Dev.endSuperseded (d : Dev) : Dev :=
  let d := d.wanted.foldl (fun d t => match t with
    | .quiesce f => (d.quiesceState f).quiesceEnd f
    | .ringReset r => if d.rd F.RNG_CTL_STATE r = 0 then d else d.ringResetEnd r
    | _ => d) d
  { d with wanted := d.wanted.filter fun t => match t with
    | .revoke _ => true
    | .mapApply => true
    | _ => false }

/-- An orderly power-down starts (R548, step 1): PHASE, the HEEL hold, and REPLAY for HEEL descriptors and for those in PENDING_COMMIT. -/
def Dev.beginOff (d : Dev) : Dev :=
  let replay (j : Job) : Bool := match j.place with
    | .parked _ _ _ => true
    | .ended _ => false
    | .replay => false
    | _ => opOf j.words = 0x30
  let ends := d.jobs.filter replay
  let d := d.cancelRedir fun r => ends.any fun j => j.ring = r.ring && j.idx = r.idx
  let d := { d with jobs := mapIf replay (fun (j : Job) => { j with place := .ended { status := 0x1A } }) d.jobs }
  { d with offStep := 1 }.wr F.PWR_SEQ_PHASE 0 7

/-- Step 9: ROLLED, the MODULE_RESET record, SERVING, unless the module is still in step 8 of start-up (R546); outside a group the rings get their REPLAY records now. A
power-down that waits starts. DEDUCED (log 24). -/
def Dev.resetStep9 (d : Dev) (c : Cx) (t : Tr) : Dev :=
  let cause := match t with
    | .moduleReset x => x
    | _ => 0
  let ms := (c.tmr - d.runsSince t) / 100000
  let d := if d.inGroup then
      { d.heelMsg 9 (max d.epochSeen (d.rd F.EPC_EPOCH_EPOCH)) 0 0 (d.rd F.EPC_STAT_LEADER_NODE) with heelStep := 8 }
    else d
  let hour := d.resetTimes.filter fun x => c.tmr < x + 360000000000
  let d := d.fault c.tmr { type := 0x16, cls := 3, w20 := cause, w28 := ms % 2 ^ 32 + 2 ^ 32 * (hour.length % 16), w30 := d.lostEpoch }
  let d := { d.endSuperseded with running := [], rstStep := 0 }
  let up := d.rd F.PWR_SEQ_PHASE = 5
  let d := ((d.wr F.RAS_STAT_MSTATE 0 (if up then 1 else 0)).wr F.RAS_STAT_LAST_MS 0 (min ms 65535)).wr F.SYS_XSTAT_DONE_COUNT 0 0
  let d := if d.inGroup then d else (d.unhold c).replay c
  let d := (if up then d else d.trialGood).fetch c
  let d : Dev := d.pumpSwitch c d.swQ.length
  if d.offStep = 9 then d.beginOff else d

/-- One step of R490; false where it does not end: no image boots, or a copy is still out. DEDUCED (log 26). -/
def Dev.resetStep (d : Dev) (c : Cx) (t : Tr) (sigs : ImgSig × ImgSig) (intact : Bool) (lost : List (Nat × Option Bytes)) :
    Dev × Bool :=
  match d.rstStep with
  | 1 => (d.resetStep1 c t, true)
  | 3 => (d.resetStep3 c.variant, true)
  | 4 => d.resetStep4 sigs intact
  | 6 => ({ d with redir := d.redirFlash }, true)
  | 7 => ((List.range c.variant.links).foldl (fun d i => if d.mayTrain c i then d.trainLink c i else d) d, true)
  | 8 => (d.resetStep8 c lost, true)
  | 9 => if d.victims.isEmpty then (d.resetStep9 c t, true) else (d, false)
  | _ => (d, true)

/-- The steps up to `reach`, at most n of them. -/
def Dev.resetSteps (c : Cx) (t : Tr) (reach : Nat) (sigs : ImgSig × ImgSig) (intact : Bool) (lost : List (Nat × Option Bytes)) :
    Nat → Dev → Dev
  | 0, d => d
  | n + 1, d =>
    let k := d.rstStep
    if k = 0 || reach < k then d
    else match d.resetStep c t sigs intact lost with
      | (d, true) => Dev.resetSteps c t reach sigs intact lost n (if k = 9 then d else { d with rstStep := k + 1, rstAt := c.tmr })
      | (d, false) => d

/-- A module reset starts, or goes on, and does the steps up to `reach`. `sigs`: what the signature checks of the two slots
find; `intact`: the running firmware matches its measurement; `lost`: pages whose pre-image is lost, each with the contents
the pack gives. Step 3 clears SYS_LOCK.LOCK (R8). -/
def execModuleReset (reach : Nat) (sigs : ImgSig × ImgSig) (intact : Bool) (lost : List (Nat × Option Bytes)) (s : State) :
    Host.Outcome State Fault Refusal :=
  let c := s.cx
  let go : Option (Tr × Dev) := match s.dev.resetTr with
    | some t => some (t, s.dev)
    | none => match s.dev.wanted.find? fun t => t.prio = 1 with
      | some t => if s.dev.canStart t then some (t, { s.dev.begin c t with rstStep := 1, rstAt := c.tmr }) else none
      | none => none
  match go with
  | none => .next s
  | some (t, d) =>
    let d' := d.resetSteps c t reach sigs intact lost 9
    let unlock := decide (d.rstStep ≤ 3) && (d'.rstStep = 0 || decide (3 < d'.rstStep))
    .next { s with dev := d', lock := s.lock && !unlock }

/-- The limit of a step in TMR ticks (R490). A step 9 that waits for copies is still step 8. DEDUCED (log 26). -/
def Dev.resetLimit (d : Dev) : Nat :=
  100000 * (if d.rstStep = 9 && !d.victims.isEmpty then 1500
    else [0, 1, 1, 5, 150, 500, 300, 1000, 1500, 1].getD d.rstStep 0)

/-- A step exceeds its limit: the module is lost (R490, R493). -/
def execResetStepLimit (s : State) : Host.Outcome State Fault Refusal :=
  s.run fun c d =>
    if d.resetTr.isNone || d.rstStep = 0 || c.tmr ≤ d.rstAt + d.resetLimit then d
    else { d with rstStep := 0 }.lose c 3

/-- RAS_RESET.GO = 1 (R489). -/
def execRasResetGo (s : State) : Host.Outcome State Fault Refusal :=
  s.run fun c d => if d.pf0Up then d.requestReset c 3 else d

/-- RESET# (R564): an edge while MSTATE is RESETTING, as in all of start-up, is absorbed. DEDUCED (log 24). -/
def execResetPin (s : State) : Host.Outcome State Fault Refusal :=
  s.run fun c d =>
    if d.rd F.RAS_STAT_MSTATE = 1 && d.rd F.PWR_SEQ_PHASE < 8 then d.inc F.RAS_STAT_ABSORBED 0 else d.requestReset c 4

end Sys2Proof.Machine
end

