-- ==== Sys2Proof/Machine/PowerDown.lean ====
section
/-! DEFINITION. The orderly power-down and what survives the loss of power (spec/17, R533, R541, R548 to R551; spec/10, R336;
spec/11, R391): rows ORDERLY_POWER_DOWN, POWER_DOWN_SAVE_END and POWER_DOWN_QUIET_LIMIT. -/
namespace Sys2Proof.Machine

/-! ### What survives -/

/-- Is the always-on domain powered (R24)? -/
def Dev.aon (d : Dev) : Bool := d.domState 112 = 1

/-- The unit's home after the loss of power: the last copy in flash (R336). -/
def Dev.coldHome (d : Dev) (u : Nat) : UnitHome → Option UnitHome
  | .flash s cp => some (.flash s cp)
  | .pinned => match tget d.pins u with
    | some p => p.fcopy.map fun (s, cp) => .flash s cp
    | none => none

/-- Is a page's only current copy in DRAM? -/
def Dev.dirtyPage (d : Dev) (page : Nat) : Bool :=
  d.lc.any (fun w => w.page = page && w.dirty) || (match tget d.pins (page / 16) with
    | some p => bit p.dirty (page % 16)
    | none => false)

/-- Registers of flash metadata, the fuses and the keeper's log, and those of the always-on domain while it is powered. DEDUCED (log 82). -/
def nvRegs : List Nat := [Reg.FLS_WEAR, Reg.FLS_SPACE, Reg.SEC_FUSE, Reg.MAP_KLOG]
/-- DEDUCED (log 82). -/
def aonRegs : List Nat := [Reg.PWR_SEQ, Reg.PWR_CAP, Reg.PWR_THR, Reg.PWR_IN, Reg.PWR_ENERGY, Reg.PWR_TEMP, Reg.SYS_STRAP]

/-- The register fields that keep their values. -/
def Dev.coldRegs (d : Dev) (aon : Bool) : Tbl Nat :=
  d.regs.filter fun (k, _) =>
    let r := k / 64 % 256
    nvRegs.contains r || (aon && aonRegs.contains r) || k = F.MAP_KEEP_TERM.key 0 || (aon && k = F.PWR_DCTL_STATE.key 112)

/-- The store, flash and the save as the loss of power leaves them: dirty pages and pinned data newer than its flash copy are
gone, and a slot that was being programmed is garbage. DEDUCED (log 82). -/
def Dev.coldStore (d : Dev) (v : Variant) : Dev :=
  let fmap := d.fmap.filterMap fun (u, h) => (d.coldHome u h).map fun h => (u, h)
  let flash := d.flash.filter fun (a, _) => (tget fmap (a / 65536)).isSome
  let stale := d.progs.foldl (fun t p =>
    let ch := d.channelOf v (p.unit * 65536)
    tset t ch ((tget t ch).getD [] ++ [p.slot])) d.stale
  { fmap := fmap, flash := flash, mem := flash, stale := stale, poison := d.poison.filter fun l => !d.dirtyPage (l / 64),
    slotNext := d.slotNext, erased := d.erased, wseq := d.wseq, erases := d.erases,
    redirFlash := d.redirFlash, save := d.save }

/-- The kennel entries kept with the map (R57, R71). -/
def Dev.knlRegs (d : Dev) : Tbl Nat :=
  d.regs.filter fun (k, _) => k / 64 % 256 = Reg.KNL_RANGE || k / 64 % 256 = Reg.KNL_BIND

/-- Every switched domain is off: what is left is in flash, in the boot flash, in the fuses and, while the input is above
20 V, in the always-on domain; and the outside of the module. DEDUCED (log 82). -/
def Dev.cold (d : Dev) (v : Variant) (aon : Bool) : Dev :=
  let n := d.coldStore v
  let n := { n with
    regs := d.coldRegs aon, stored := if d.map.epoch = 0 then d.stored else some d.map,
    storedKnl := if d.map.epoch = 0 then d.storedKnl else d.knlRegs,
    kp := { log := d.kp.log, kmap := d.kp.kmap, voted := d.kp.voted } }
  let n := { n with bootFlash := d.bootFlash, made := d.made, nvActive := d.nvActive, nvPending := d.nvPending, nvOk := d.nvOk,
                    certs := d.certs, cables := d.cables, perst := d.perst }
  let n := { n with fresh := d.fresh, seq := d.seq, born := d.born, out := d.out }
  if aon then
    { n with alerts := d.alerts, sideQ := d.sideQ, sideLost := d.sideLost, tripped := d.tripped, inputs := d.inputs,
             energyRem := d.energyRem, i3cAddr := d.i3cAddr, eid := d.eid, tid := d.tid }
  else n

/-- The module stops with a cause (R533, R541, R546, R548): every switched domain goes off and power-good with them. DEDUCED (log 81). -/
def Dev.stop (d : Dev) (v : Variant) (phase cause : Nat) : Dev :=
  ((d.cold v true).wr F.PWR_SEQ_PHASE 0 phase).wr F.PWR_SEQ_OFFCAUSE 0 cause

/-! ### The orderly power-down (R548) -/

/-- An orderly power-down is asked for. It waits for a module reset that runs, and for the end of step 7 of start-up. -/
def Dev.powerDown (d : Dev) : Dev :=
  let phase := d.rd F.PWR_SEQ_PHASE
  if d.offStep ≠ 0 || 7 ≤ phase then d
  else if phase < 5 || d.resetTr.isSome || d.wanted.any (fun t => t.prio = 1) then { d with offStep := 9 }
  else d.beginOff

/-- PWR_OFFREQ.GO = 1. -/
def execOrderlyPowerDown (s : State) : Host.Outcome State Fault Refusal :=
  s.run fun _ d => if d.pf0Up then d.powerDown else d

/-- Step 4, units: dirty line-cache units and pinned units with DIRTY set, charged to no kennel; programs in progress end. DEDUCED (log 82). -/
def Dev.saveUnits (d : Dev) (v : Variant) : Dev :=
  let d := d.progs.foldl (fun d p => d.endProg v p) d
  let units := ((d.lc.filter fun w => w.dirty).map fun w => w.page / 16).eraseDups
  let d := units.foldl (fun d u =>
    let old := match d.unitHome u with
      | some (.flash s cp) => some (s, cp)
      | _ => none
    let (d, new) := d.programUnit v u old false
    { d with fmap := match new with
               | some (s, cp) => tset d.fmap u (.flash s cp)
               | none => tdel d.fmap u }) d
  let d := { d with lc := d.lc.map fun (w : LcWay) => { w with dirty := false } }
  (d.pins.filter fun (_, p) => p.dirty ≠ 0).foldl (fun d (u, p) =>
    let (d, new) := d.programUnit v u p.fcopy false
    { d with pins := tset d.pins u { p with fcopy := new, dirty := 0 } }) d

/-- Step 4, metadata: the closing record last. DEDUCED (log 82). -/
def Dev.writeSave (d : Dev) (v : Variant) : Dev :=
  let d := d.saveUnits v
  { d with save := some { last := d.rd F.EPC_LAST_LAST, pins := d.pins, tens := d.tens, undo := d.undo, redir := d.redir } }

/-- Step 5: the links and the port go down, the domains off; PHASE is OFF_SAFE. -/
def Dev.offSafe (d : Dev) (v : Variant) : Dev := (d.writeSave v).stop v 8 1

/-- Step 3: recall and invalidate. -/
def Dev.offRecall (d : Dev) (c : Cx) : Dev := { d with offStep := 3 }.recallEvery c

/-- Nothing is in flight at a home. -/
def Dev.homeQuiet (d : Dev) : Bool :=
  d.trackers.isEmpty && d.conflict.isEmpty && d.victims.isEmpty && d.held.isEmpty && d.fills.isEmpty

/-- The steps of R548 that can end, at most n of them. -/
def Dev.offGo (c : Cx) (env : List Reply) : Nat → Dev → Dev
  | 0, d => d
  | n + 1, d =>
    match d.offStep with
    | 1 =>
      if d.jobs.isEmpty then
        match d.flushSegs c 0 env fun _ => true with
        | none => d
        | some d => Dev.offGo c env n { d with offStep := 2, offAt := c.tmr }
      else d
    | 2 =>
      if (d.instances F.KNL_INFLT_COUNT).isEmpty then Dev.offGo c env n (d.offRecall c) else d
    | 3 =>
      if !d.homeQuiet then d
      else if d.dir.isEmpty then d.offSafe c.variant
      else d.recallEvery c
    | _ => d

/-- The power-down goes on as far as it can. `env`: what other modules answer to the segments flushed. -/
def execPowerDownSaveEnd (env : List Reply) (s : State) : Host.Outcome State Fault Refusal :=
  s.run fun c d => d.offGo c env 3

/-- Step 2 has waited 500 ms: what is still in flight is waited for no longer. -/
def execPowerDownQuietLimit (s : State) : Host.Outcome State Fault Refusal :=
  s.run fun c d => if d.offStep = 2 && d.offAt + 50000000 ≤ c.tmr then d.offRecall c else d

end Sys2Proof.Machine
end

