-- ==== Sys2Proof/Machine/RegRead.lean ====
section
/-! DEFINITION. Reading registers (spec/00, R14, R17, R581; spec/19, R573 to R578): the register at an offset, the windows
of the instanced blocks, the fields the module computes at the read, snapshots, and the function BARs (spec/05, R186;
spec/12, R405). -/
namespace Sys2Proof.Machine

/-! ### Where registers are -/

/-- Is an instance present in this variant (R5)? -/
def instPresent (v : Variant) (p : Presence) (i : Nat) : Bool :=
  match p with
  | .always => true
  | .link => i < v.links
  | .flash => i < v.channels
  | .stack => i < v.stacks
  | .sensor =>
    if i < 16 then true else if i < 24 then (i - 16) / 2 < v.dies else if i < 32 then i - 24 < v.stacks
    else if i < 36 then i - 32 < v.dies else true
  | .domain => domPresent v i
  | .fnFrom1 => 1 ≤ i

/-- The instance of a register at an offset. -/
def RegDef.instAt (r : RegDef) (off : Nat) : Option Nat :=
  if off < r.base then none
  else
    let rel := off - r.base
    let i := if r.s1 = 0 then 0 else rel / r.s1
    let rest := if r.s1 = 0 then rel else rel % r.s1
    let j := if r.s2 = 0 then 0 else rest / r.s2
    let z := if r.s2 = 0 then rest else rest % r.s2
    if i < r.n1 && j < r.n2 && z = 0 then some (i * r.n2 + j) else none

/-- The register at an 8-byte aligned offset, and its instance. -/
def regAt (off : Nat) : Option (RegDef × Nat) :=
  (slotRegs (off / 2 ^ 22)).findSome? fun r => (r.instAt off).map fun i => (r, i)

/-- An instanced block: its slot, instances, stride, mask granule, presence and group masks (R575). -/
structure Block where
  slot   : Nat
  n      : Nat
  stride : Nat
  g      : Nat
  pres   : Presence
  mask   : Fld
  deriving DecidableEq, Repr

/-- The table of R575. -/
def blocks : List Block := [
  ⟨6, 32, 0x10000, 1, .always, F.SHP_GMASK_MASK⟩, ⟨7, 16, 0x10000, 1, .always, F.PTR_GMASK_MASK⟩,
  ⟨9, 4096, 0x80, 64, .always, F.RNG_GMASK_MASK⟩, ⟨10, 513, 0x400, 9, .always, F.FN_GMASK_MASK⟩,
  ⟨12, 2048, 0x20, 32, .always, F.KNL_GMASK_MASK⟩, ⟨16, 96, 0x8000, 2, .link, F.LNK_GMASK_MASK⟩,
  ⟨18, 32, 0x10000, 1, .flash, F.FLS_GMASK_MASK⟩, ⟨19, 8, 0x10000, 1, .stack, F.DRM_GMASK_MASK⟩]

/-- Is an offset in a window of a block, and which: none the broadcast window (R576)? -/
def windowOf (off : Nat) : Option (Block × Option Nat × Nat) :=
  let w := off % 2 ^ 22
  match blocks.find? fun b => b.slot = off / 2 ^ 22 with
  | none => none
  | some b =>
    if 0x300000 ≤ w && w < 0x310000 then some (b, none, w - 0x300000)
    else if 0x380000 ≤ w then some (b, some ((w - 0x380000) / 0x10000), (w - 0x380000) % 0x10000)
    else none

/-- The offsets an access to an offset reaches, in ascending instance order: the target set of a window, or the one offset
(R573, R576). -/
def Dev.targets (d : Dev) (v : Variant) (off : Nat) : List Nat :=
  match windowOf off with
  | none => [off]
  | some (b, g, rel) =>
    if b.stride ≤ rel then []
    else ((List.range b.n).filter fun i => instPresent v b.pres i && (match g with
      | none => true
      | some g => d.bitAt b.mask g (i / b.g))).map fun i => b.slot * 2 ^ 22 + i * b.stride + rel

/-! ### Fields computed at the read -/

/-- SYS and TMR. DEDUCED (log 22). -/
def Dev.liveSys (d : Dev) (c : Cx) (f : Fld) : Option Nat :=
  let v := c.variant
  if f = F.SYS_VARIANT_STACKS then some v.stacks
  else if f = F.SYS_VARIANT_IODIES then some v.dies
  else if f = F.SYS_VARIANT_LINKS then some v.links
  else if f = F.SYS_VARIANT_FLASH_CH then some v.channels
  else if f = F.SYS_LOCK_LOCK then some (if c.lock then 1 else 0)
  else if f = F.SYS_XSTAT_ACTIVE then some (match d.running with
    | r :: _ => r.tr.prio
    | [] => 0)
  else if f = F.SYS_XSTAT_PENDING then
    some (((d.wanted ++ (d.running.drop 1).map fun r => r.tr).map fun t => t.prio).eraseDups.foldl (fun m p => m + 2 ^ (p - 1)) 0)
  else if f = F.SYS_XSTAT_ARG then some (match d.running with
    | r :: _ => r.tr.arg
    | [] => 0)
  else if f = F.SYS_STRAP_CBL then some ((d.cables.filter fun k => k < 12).foldl (fun m k => m + 2 ^ k) 0)
  else if f = F.SYS_STRAP_CXLCBL then some (if d.cables.contains 12 then 1 else 0)
  else if f = F.TMR_NOW_TICKS then some c.tmr
  else none

/-- A bay's registers. -/
def Dev.liveBay (d : Dev) (f : Fld) (i : Nat) : Option Nat :=
  let thr (g : Thread → Nat) : Option Nat := some (match tget d.threads i with
    | some t => g t
    | none => 0)
  if f = F.SHP_STAT_BUSY then
    some ((List.range 8).foldl (fun m t => if (tget d.threads (8 * i + t)).isSome then m + 2 ^ t else m) 0)
  else if f = F.SHP_STAT_QDEPTH then some (d.jobs.filter fun j => j.place = .queued i).length
  else if f = F.SHP_STAT_USABLE then some (if d.usable i then 1 else 0)
  else if f = F.SHP_CYCLE_CYCLE then some (Config.freeValue d.fresh)
  else if f = F.SHP_THR_STATE then thr fun t => t.state
  else if f = F.SHP_THR_STEP then thr fun t => t.step
  else if f = F.SHP_THR_OPCODE then thr fun t => t.op
  else if f = F.SHP_THR_DINDEX then thr fun t => t.idx
  else none

/-- A directory slice's occupancy. -/
def Dev.liveSlice (d : Dev) (v : Variant) (f : Fld) (i : Nat) : Option Nat :=
  let mine (line : Nat) : Bool := d.sliceOf v (line * 64) = i
  if f = F.PTR_STAT_ENTRIES then some (d.dir.filter fun (k, _) => k / 131072 = i).length
  else if f = F.PTR_STAT_VICTIMS then some (d.victims.filter fun t => mine t.line).length
  else if f = F.PTR_STAT_TRACKERS then some (d.trackers.filter fun t => mine t.line).length
  else if f = F.PTR_STAT_ABUF then some (d.abuf.filter mine).length
  else none

/-- Translation, rings and functions. -/
def Dev.liveRing (d : Dev) (f : Fld) (i : Nat) : Option Nat :=
  if f = F.XLT_STAT_WALKS then some (d.walks.filter fun w => w.started).length
  else if f = F.XLT_STAT_INV_PHASE then some (if d.inval.isSome || !d.closing.isEmpty then 2 else 0)
  else if f = F.XLT_STAT_OLD_COUNT then some (if d.inval.isSome then d.oldCount else 0)
  else if f.reg = Reg.RNG_BIND then some (d.rd f (i / 8 * 8))
  else if f = F.RNG_HOLD_HOLD then
    let h := d.rd f i
    some (if d.ringsHeld && d.rd F.RNG_CTL_STATE i ≠ 0 && !bit h 6 then h + 64 else h)
  else if f = F.FN_STAT_MAPPED then some (if d.map.fns.any fun x => x.fn == i then 1 else 0)
  else if f = F.FN_STAT_RINGS then
    some (8 * (List.range 512).countP fun g => d.rd F.RNG_BIND_BOUND (8 * g) = 1 && d.rd F.RNG_BIND_COLLAR (8 * g) = i)
  else if f = F.FN_STAT_OUTST then some ((d.ringsOf i).map fun r => d.rd F.RNG_HOLD_OUTSTANDING r).sum
  else none

/-- Tiers, undo and flash. DEDUCED (log 22). -/
def Dev.liveTier (d : Dev) (v : Variant) (f : Fld) (i : Nat) : Option Nat :=
  let wear : List Nat := (d.erases.filter fun (k, _) => k / 2 ^ 32 = i).map fun (_, n) => n
  if f = F.TIR_OCC_VALID then some d.lc.length
  else if f = F.TIR_OCC_DIRTY then some (d.lc.filter fun w => w.dirty).length
  else if f = F.TIR_TT_PINNED then some (d.tens.filter fun (_, e) => !e.shadow).length
  else if f = F.TIR_TT_SHADOW then some (d.tens.filter fun (_, e) => e.shadow).length
  else if f = F.TIR_KPIN_USE then some (d.pinUse i)
  else if f = F.TIR_KLC_USE then some (d.lcUse i)
  else if f = F.TIR_KSHD_USE then some (d.shadowUse i)
  else if f = F.TIR_KUNDO_USE then
    some (d.undo.filter fun u => u.epoch = d.rd F.EPC_EPOCH_EPOCH && !u.parity && d.kennelAt (u.page * 4096) = some i).length
  else if f = F.EPC_UNDO_PAGES then some d.undo.length
  else if f = F.EPC_UNDO_RESERVE_USE then some d.undoReserve
  else if f = F.FLS_WEAR_ERASE_AVG then some (wear.sum / ceilDiv rawSlots (max 1 Config.blockSlots))
  else if f = F.FLS_WEAR_ERASE_MAX then some (wear.foldl max 0)
  else if f = F.TIR_REGION_META then some (if v.dies = 4 then 9 else 5)
  else none

/-- Retriever and Tracker. DEDUCED (log 22). -/
def Dev.liveSearch (d : Dev) (f : Fld) : Option Nat :=
  if f = F.RTV_RSTAT_VALID then some (d.redir.filter fun (_, r) => r.valid).length
  else if f = F.RTV_RSTAT_PENDING then some (d.redir.filter fun (_, r) => r.pending).length
  else if f = F.TRK_CTX_INUSE then some d.pq.length
  else none

/-- The value a read of a field returns. -/
def Dev.fieldValue (d : Dev) (c : Cx) (f : Fld) (i : Nat) : Nat :=
  match (d.liveSys c f).orElse fun _ => (d.liveBay f i).orElse fun _ => (d.liveSlice c.variant f i).orElse fun _ =>
      (d.liveRing f i).orElse fun _ => (d.liveTier c.variant f i).orElse fun _ => d.liveSearch f with
  | some x => x
  | none => d.rd f i

/-- The 64 bits of a register: a WO field and reserved bits read as 0 (R15, R17). DESIGN CHOICE (log 19). -/
def Dev.regWord (d : Dev) (c : Cx) (r : RegDef) (i : Nat) : Nat :=
  r.flds.foldl (fun w f => w + (if f.acc = .wo then 0 else d.fieldValue c f i % 2 ^ f.w * 2 ^ f.lo)) 0

/-! ### Snapshots -/

/-- The two words of a directory entry (R75). -/
def DirEnt.words (e : DirEnt) : Nat × Nat :=
  let p (x : Option Agent) : Nat := match x with
    | some a => a.ptr
    | none => 0
  (1 + 2 * (if e.owned then 2 else 1) + 8 * (if e.ovf then 1 else 0) + 16 * (e.line % 4) + 64 * e.collar +
      2 ^ 16 * (e.line / 4 / 2 ^ 13),
   p e.p0 + 2 ^ 16 * p e.p1 + 2 ^ 32 * p e.p2 + 2 ^ 48 * p e.p3)

/-- The four words of a redirect entry (R283). -/
def Redir.words (r : Redir) : List Nat :=
  let b (x : Bool) : Nat := if x then 1 else 0
  [b r.valid + 2 * b r.pending + 4 * b r.dirty + 8 * r.pmode + 32 * r.collar + 2 ^ 32 * r.srow, r.stable, r.dtable, r.drow]

/-- What a read of the first word of a probe does first: PTR_PDATA0 (R118), SHP_TDATA0 (R218), RTV_RDATA0 (R292). A slot
beyond the image, or of a cluster that is not loaded, holds nothing the spec states: free values. -/
def Dev.snapshot (d : Dev) (id i : Nat) : Dev :=
  if id = Reg.PTR_PDATA0 then
    let (a, b) := match tget d.dir ((i * 8192 + d.rd F.PTR_PROBE_SET i) * 16 + d.rd F.PTR_PROBE_WAY i) with
      | some e => e.words
      | none => (0, 0)
    (d.wr F.PTR_PDATA0_WORD0 i a).wr F.PTR_PDATA1_WORD1 i b
  else if id = Reg.SHP_TDATA0 then
    let s := d.rd F.SHP_TPROBE_SLOT 0
    if d.rd F.SHP_CLSTAT_LOADED (d.rd F.SHP_TPROBE_CLUSTER 0) = 1 && s < d.slots then
      (d.wr F.SHP_TDATA0_WORD0 0 ((tget d.steps (2 * s)).getD 0)).wr F.SHP_TDATA1_WORD1 0 ((tget d.steps (2 * s + 1)).getD 0)
    else
      let (a, d) := d.pick
      let (b, d) := d.pick
      (d.wr F.SHP_TDATA0_WORD0 0 a).wr F.SHP_TDATA1_WORD1 0 b
  else if id = Reg.RTV_RDATA0 then
    let w := match tget d.redir (d.rd F.RTV_RPROBE_ENTRY 0) with
      | some r => r.words
      | none => [0, 0, 0, 0]
    (((d.wr F.RTV_RDATA0_WORD0 0 (w.getD 0 0)).wr F.RTV_RDATA1_WORD1 0 (w.getD 1 0)).wr F.RTV_RDATA2_WORD2 0 (w.getD 2 0)).wr
      F.RTV_RDATA3_WORD3 0 (w.getD 3 0)
  else d

/-! ### Reads -/

/-- The bits an access of `width` bytes at an offset takes of its 64-bit word: the low bit and the count; none for another
size or alignment (R14). -/
def span (off width : Nat) : Option (Nat × Nat) :=
  if width = 8 && off % 8 = 0 then some (0, 64)
  else if width = 4 && off % 4 = 0 then some (off % 8 * 8, 32)
  else none

/-- Read bits [lo, lo + n) of a register: what they show is returned, and the RC fields wholly within them are cleared
(R581). DESIGN CHOICE (log 19). -/
def Dev.readReg (d : Dev) (c : Cx) (r : RegDef) (i lo n : Nat) : Dev × Nat :=
  if !instPresent c.variant r.pres i then (d, 0)
  else
    let d := d.snapshot r.id i
    let w := d.regWord c r i
    let d := (r.flds.filter fun f => f.acc = .rc && lo ≤ f.lo && f.lo + f.w ≤ lo + n).foldl (fun d f => d.wr f i 0) d
    (if r.id = Reg.SHP_CYCLE then { d with fresh := d.fresh + 1 } else d, w / 2 ^ lo % 2 ^ n)

/-- An entry word of a step trace buffer (R217): not defined until written, so a free value. DESIGN CHOICE (log 19). -/
def Dev.readTrace (d : Dev) (off : Nat) : Dev × Nat :=
  let b := off % 2 ^ 22 / 0x10000
  let rel := off % 0x10000 - 0x8000
  match tget d.trace (b * 1024 + rel / 32) with
  | some e => (d, match rel / 8 % 4 with
    | 0 => e.w0
    | 1 => e.w1
    | 2 => e.w2
    | _ => e.w3)
  | none => let (x, d) := d.pick; (d, x % 2 ^ 64)

/-- Read at an offset of PF0 BAR0 that is in no window. -/
def Dev.readPlain (d : Dev) (c : Cx) (off lo n : Nat) : Dev × Nat :=
  if off / 2 ^ 22 = 6 && off % 2 ^ 22 < 0x200000 && 0x8000 ≤ off % 0x10000 then
    let (d, w) := d.readTrace off
    (d, w / 2 ^ lo % 2 ^ n)
  else match regAt off with
    | some (r, i) => d.readReg c r i lo n
    | none => (d, 0)

/-- Read PF0 BAR0: through a window, the lowest-numbered instance of its target set (R578). -/
def Dev.readBar0 (d : Dev) (c : Cx) (off width : Nat) : Dev × Nat :=
  match span off width with
  | none => (d, 0)
  | some (lo, n) => match d.targets c.variant (off / 8 * 8) with
    | o :: _ => d.readPlain c o lo n
    | [] => (d, 0)

/-- A word of the function status page (R186); FSTATE is FN_STAT. -/
def Dev.statusWord (d : Dev) (c : Cx) (f rel : Nat) : Nat :=
  if rel < 0x400 then match d.globalRing f (rel / 16) with
    | none => 0
    | some r =>
      if rel % 16 = 0 then d.rd F.RNG_PTR_FETCH r + 2 ^ 32 * d.rd F.RNG_CPTR_CTAIL r
      else d.rd F.RNG_CTL_STATE r + 2 ^ 3 * d.fieldValue c F.RNG_HOLD_HOLD r + 2 ^ 32 * d.rd F.RNG_PTR_TAIL r
  else if rel = 0x400 then d.rd F.FN_FRPTR_FTAIL f + 2 ^ 32 * d.rd F.FN_FRPTR_FHEAD f
  else if rel = 0x408 then d.rd F.FN_FROVF_LOST f
  else if rel = 0x410 then match regAt (0x2800008 + f * 0x400) with
    | some (r, i) => d.regWord c r i
    | none => 0
  else 0

/-- A word of a function's BAR: the doorbell page reads 0; the status page; the MSI-X table and the PBA (R405). -/
def Dev.fnWord (d : Dev) (c : Cx) (f off : Nat) : Nat :=
  let n := d.rd F.FN_VEC_COUNT f
  if off < 0x1000 then 0
  else if off < 0x2000 then d.statusWord c f (off - 0x1000)
  else if off < 0x3000 then
    let v := (off - 0x2000) / 16
    let w := (off - 0x2000) % 16 / 4
    if v < min n 64 then d.msixWord f v w + 2 ^ 32 * d.msixWord f v (w + 1) else 0
  else if off = 0x3000 then (d.pba.filter fun p => p / 64 = f && p % 64 < n).foldl (fun m p => m + 2 ^ (p % 64)) 0
  else 0

/-- A read in one of the address spaces (R573). What BAR4 holds in the layout of CXL 3.1 is not in the spec: a free value. DESIGN CHOICE (log 19). -/
def Dev.readSpace (d : Dev) (c : Cx) (sp : Space) (off width : Nat) (tee : Bool) : Dev × Option Nat :=
  if !d.pf0Up then (d, none)
  else match sp with
    | .pf0 => let (d, w) := d.readBar0 c off width; (d, some w)
    | .fn f =>
      if !d.fnUp f || !d.teeOk f tee then (d, none)
      else match span off width with
        | none => (d, some 0)
        | some (lo, n) => (d, some (d.fnWord c f (off / 8 * 8) / 2 ^ lo % 2 ^ n))
    | .msixCtl f => (d, some ((tget d.msixCtl f).getD 0))
    | .sriov => (d, some ((if d.vfEnable then 1 else 0) + 2 ^ 16 * d.numVfs))
    | .biCtl => (d, some (if d.biEnable then 1 else 0))
    | .bar4 => let (x, d) := d.pick; (d, some (x % 2 ^ (8 * width)))

end Sys2Proof.Machine
end

