-- ==== Sys2Proof/Machine/RegRows.lean ====
section
/-! DEFINITION. Writing registers (spec/00, R5, R9, R14, R17; spec/19, R573 to R580) and the rows SYS_LOCK to RAS_LKCFG_WRITE and
TRACE_ENABLE to REGISTER_WRITE. A write acts on the fields its bits cover, by their access types, unless the register has a
rule of its own. -/
namespace Sys2Proof.Machine

/-! ### A write -/

/-- A write of n bits from bit `lo` of a 64-bit register. -/
structure Acs where
  lo : Nat
  n  : Nat
  v  : Nat
  deriving DecidableEq, Repr

/-- The 64-bit write of a value. -/
def whole (v : Nat) : Acs := ⟨0, 64, v⟩

/-- The bits of a field that the write covers, as a mask of the field; and what it writes there. -/
def Acs.mask (a : Acs) (f : Fld) : Nat := (2 ^ a.n - 1) * 2 ^ a.lo / 2 ^ f.lo % 2 ^ f.w
def Acs.get (a : Acs) (f : Fld) : Nat := a.v % 2 ^ a.n * 2 ^ a.lo / 2 ^ f.lo % 2 ^ f.w

/-- A field's value after the write. -/
def Acs.mix (a : Acs) (old : Nat) (f : Fld) : Nat := old - (old &&& a.mask f) + (a.get f &&& a.mask f)

/-- Does the write cover a field, and does it write 1 there? -/
def Acs.covers (a : Acs) (f : Fld) : Bool := a.mask f ≠ 0
def Acs.sets (a : Acs) (f : Fld) : Bool := bit (a.get f) 0

/-- The write reaches a field: by its access type, and for RWL the lock (R17). -/
def Dev.putField (d : Dev) (c : Cx) (a : Acs) (i : Nat) (f : Fld) : Dev :=
  match f.acc with
  | .rw => d.wr f i (a.mix (d.rd f i) f)
  | .rwl => if c.lock then d else d.wr f i (a.mix (d.rd f i) f)
  | .w1c => d.wr f i (d.rd f i - (d.rd f i &&& a.get f))
  | .w1s => d.wr f i (d.rd f i ||| a.get f)
  | .ro => d
  | .wo => d
  | .rc => d

/-- The write reaches several fields. -/
def Dev.putFields (d : Dev) (c : Cx) (a : Acs) (i : Nat) (fs : List Fld) : Dev := fs.foldl (fun d f => d.putField c a i f) d

/-! ### Registers with a rule of their own -/

/-- RAS_LKCFG (R482): a write clears every counter of its kind. -/
def Dev.lkcfgWrite (d : Dev) (c : Cx) (k : Nat) (a : Acs) : Dev :=
  if c.lock then d
  else { d.putFields c a k [F.RAS_LKCFG_THRESH, F.RAS_LKCFG_WINDOW] with leaks := d.leaks.filter fun (l : Leak) => l.kind ≠ k }

/-- SHP_CTL (R217): TRACE_EN from 0 to 1 empties the trace buffer. -/
def Dev.shpCtlWrite (d : Dev) (c : Cx) (b : Nat) (a : Acs) : Dev :=
  let was := d.rd F.SHP_CTL_TRACE_EN b
  let d := d.putFields c a b [F.SHP_CTL_TRACE_THR, F.SHP_CTL_TRACE_EN, F.SHP_CTL_TRACE_STOP]
  if was = 0 && d.rd F.SHP_CTL_TRACE_EN b = 1 then
    let d := ((d.wr F.SHP_TRPTR_NEXT b 0).wr F.SHP_TRPTR_WRAPPED b 0).wr F.SHP_TRPTR_STOPPED b 0
    { d with trace := d.trace.filter fun (k, _) => k / 1024 ≠ b }
  else d

/-- The cause for which window w cannot open (R137): 1 size, 3 collar, 2 not within one ACTIVE kennel of the collar. -/
def Dev.windowErr (d : Dev) (w : Nat) : Nat :=
  let size := d.rd F.XLT_WCTL_SIZE w
  let col := d.rd F.XLT_WCTL_COLLAR w
  let off := d.rd F.XLT_WBASE_BASE w * 4096
  if size = 0 || 2 ^ 24 < size then 1
  else if 512 < col then 3
  else match d.kennelAt off with
    | none => 2
    | some k =>
      let last := (d.rd F.KNL_RANGE_BASE k + d.rd F.KNL_RANGE_SIZE k) * 2 ^ 30
      if d.rd F.KNL_BIND_STATE k = 1 && d.rd F.KNL_BIND_COLLAR k = col && off + size * 4096 ≤ last then 0 else 2

/-- XLT_WCTL (R137): its fields are writable while FREE; OPEN = 1 opens a FREE window or sets ERR. Both registers of a window
belong to the locked set of its collar's function (R519). -/
def Dev.wctlWrite (d : Dev) (c : Cx) (w : Nat) (a : Acs) : Dev :=
  d.pfWrite (d.rd F.XLT_WCTL_COLLAR w) fun d =>
    let op := a.sets F.XLT_WCTL_OPEN
    if d.rd F.XLT_WCTL_ST w ≠ 0 then if op then d.wr F.XLT_WCTL_ERR w 4 else d
    else
      let d := d.putFields c a w [F.XLT_WCTL_SIZE, F.XLT_WCTL_COLLAR, F.XLT_WCTL_R, F.XLT_WCTL_W, F.XLT_WCTL_A,
        F.XLT_WCTL_SRCMODE, F.XLT_WCTL_SRCNODE]
      if !op then d
      else
        let err := d.windowErr w
        if err = 0 then (d.wr F.XLT_WCTL_ST w 1).wr F.XLT_WCTL_ERR w 0 else d.wr F.XLT_WCTL_ERR w err

/-- RNG_BIND (R148). DEDUCED (log 21). -/
def Dev.bindWrite (d : Dev) (c : Cx) (r : Nat) (a : Acs) : Dev :=
  let _ := c
  if r % 8 ≠ 0 then d
  else d.ringWrite r fun d =>
    d.ringBind r (a.mix (d.rd F.RNG_BIND_COLLAR r) F.RNG_BIND_COLLAR) (a.mix (d.rd F.RNG_BIND_LGROUP r) F.RNG_BIND_LGROUP)
      (a.mix (d.rd F.RNG_BIND_BOUND r) F.RNG_BIND_BOUND = 1)

/-- RNG_CTL: fields [18:4] while DISABLED; EN enables a DISABLED ring or asks for a ring reset (R401). -/
def Dev.ringCtlWrite (d : Dev) (c : Cx) (r : Nat) (a : Acs) : Dev :=
  d.ringWrite r fun d =>
    let d := if d.rd F.RNG_CTL_STATE r = 0 then
        d.putFields c a r [F.RNG_CTL_PLACE, F.RNG_CTL_CPLACE, F.RNG_CTL_SIZE, F.RNG_CTL_CSIZE, F.RNG_CTL_SERVICE]
      else d
    if !a.covers F.RNG_CTL_EN then d
    else if a.sets F.RNG_CTL_EN then d.ringEnable r
    else d.ringDisable r

/-- The other fields of a ring context (R148, R404): the bases while DISABLED; RNG_IRQ is ignored when it names a vector the
function does not have, unless the ring is DISABLED. DEDUCED (log 21). -/
def Dev.ringFieldWrite (d : Dev) (c : Cx) (id r : Nat) (a : Acs) (fs : List Fld) : Dev :=
  d.ringWrite r fun d =>
    let free := d.rd F.RNG_CTL_STATE r = 0
    let vec := a.mix (d.rd F.RNG_IRQ_VECTOR r) F.RNG_IRQ_VECTOR
    if (id = Reg.RNG_DBASE || id = Reg.RNG_CBASE) && !free then d
    else if id = Reg.RNG_IRQ && !free && d.rd F.FN_VEC_COUNT (d.ringFn r) ≤ vec then d
    else d.putFields c a r fs

/-- FN_CTL: XCLASS, FLR, then EN (R394 to R396). -/
def Dev.fnCtlWrite (d : Dev) (c : Cx) (f : Nat) (a : Acs) : Dev :=
  d.pfWrite f fun d =>
    let d := d.putField c a f F.FN_CTL_XCLASS
    let d := if a.sets F.FN_CTL_FLR then d.flr f else d
    if !a.covers F.FN_CTL_EN then d
    else if a.sets F.FN_CTL_EN then d.fnEnable f
    else d.fnDisable f

/-- FN_VEC, FN_IRQF and FN_XLT_ROOT are writable while the function is DISABLED (R127); bits of FN_IRQF at or beyond COUNT are
ignored. DEDUCED (log 21). -/
def Dev.fnFieldWrite (d : Dev) (c : Cx) (id f : Nat) (a : Acs) (fs : List Fld) : Dev :=
  d.pfWrite f fun d =>
    if d.rd F.FN_STAT_STATE f ≠ 0 then d
    else
      let d := d.putFields c a f fs
      if id = Reg.FN_IRQF then d.wr F.FN_IRQF_FABRIC f (d.rd F.FN_IRQF_FABRIC f % 2 ^ min 64 (d.rd F.FN_VEC_COUNT f)) else d

/-- FN_FRBASE: writable while the fault ring is off. -/
def Dev.frBaseWrite (d : Dev) (c : Cx) (f : Nat) (a : Acs) : Dev :=
  d.pfWrite f fun d => if d.rd F.FN_FRCTL_EN f = 1 then d else d.putField c a f F.FN_FRBASE_ADDR

/-- FN_FRCTL (R179, R404): EN = 1 is ignored when the size, the vector or the range is not allowed; setting it zeroes FTAIL and
FHEAD. DEDUCED (log 21). -/
def Dev.frCtlWrite (d : Dev) (c : Cx) (f : Nat) (a : Acs) : Dev :=
  d.pfWrite f fun d =>
    if d.rd F.FN_FRCTL_EN f = 1 then if a.covers F.FN_FRCTL_EN && !a.sets F.FN_FRCTL_EN then d.wr F.FN_FRCTL_EN f 0 else d
    else
      let n := d.putFields c a f [F.FN_FRCTL_PLACE, F.FN_FRCTL_SIZE, F.FN_FRCTL_VECTOR]
      if !a.sets F.FN_FRCTL_EN then n
      else
        let size := n.rd F.FN_FRCTL_SIZE f
        if size < 4 || 12 < size || n.rd F.FN_VEC_COUNT f ≤ n.rd F.FN_FRCTL_VECTOR f ||
            !ringFits (n.rd F.FN_FRCTL_PLACE f = 1) (n.rd F.FN_FRBASE_ADDR f * 4096) (64 * 2 ^ size) then d
        else ((n.wr F.FN_FRCTL_EN f 1).wr F.FN_FRPTR_FTAIL f 0).wr F.FN_FRPTR_FHEAD f 0

/-- LSH_RATE and LSH_WGT (R415): the write sets the leash's balance, fraction and deficit to 0. -/
def Dev.leashWrite (d : Dev) (c : Cx) (l : LshRegs) (level i : Nat) (a : Acs) (wgt : Bool) : Dev :=
  (d.putFields c a i (if wgt then [l.weight] else [l.rate, l.burst, l.unlim])).zeroLeash l level i

/-- The DRAM of a variant in GiB: the sum of the regions of R327. -/
def dramGiB (v : Variant) : Nat := 64 * v.stacks

/-- The metadata, undo, shadow and pinned regions together. -/
def Dev.regionsGiB (d : Dev) (v : Variant) : Nat :=
  (if v.dies = 4 then 9 else 5) + d.rd F.TIR_REGION_UNDO + d.rd F.TIR_REGION_SHADOW + d.rd F.TIR_REGION_PINNED

/-- TIR_REGION (R327): RWL while TIR_CTL.EN is 0; LC takes the rest. -/
def Dev.regionWrite (d : Dev) (c : Cx) (a : Acs) : Dev :=
  if d.rd F.TIR_CTL_EN = 1 then d
  else
    let d := d.putFields c a 0 [F.TIR_REGION_UNDO, F.TIR_REGION_SHADOW, F.TIR_REGION_PINNED]
    d.wr F.TIR_REGION_LC 0 (dramGiB c.variant - d.regionsGiB c.variant)

/-- TIR_CTL (R327, R547): EN = 1 is ignored before step 7 of start-up ends, refused with ERR, or applies the regions; the
module may then be ready for service. -/
def Dev.tirCtlWrite (d : Dev) (c : Cx) (a : Acs) : Dev :=
  let d := d.putFields c a 0 [F.TIR_CTL_QERR, F.TIR_CTL_DIRTY_HI]
  if !a.sets F.TIR_CTL_EN || c.lock || d.rd F.TIR_CTL_EN = 1 || d.rd F.PWR_SEQ_PHASE < 5 then d
  else if dramGiB c.variant < d.regionsGiB c.variant then d.wr F.TIR_CTL_ERR 0 2
  else
    let lc := dramGiB c.variant - d.regionsGiB c.variant
    if lc < 16 then d.wr F.TIR_CTL_ERR 0 1
    else (((d.wr F.TIR_REGION_LC 0 lc).wr F.TIR_CTL_ERR 0 0).wr F.TIR_CTL_EN 0 1).goReady c

/-- Does a quota write stay within its region (R341)? The undo region counts less its reserve (spec/11). -/
def Dev.quotaFits (d : Dev) (q : Fld) (k v : Nat) : Bool :=
  let others := ((d.instances q).filter (· ≠ k)).map fun i => d.rd q i
  let gib := if q = F.TIR_KPIN_QUOTA then d.rd F.TIR_REGION_PINNED
    else if q = F.TIR_KLC_SHARE then d.rd F.TIR_REGION_LC
    else if q = F.TIR_KSHD_QUOTA then d.rd F.TIR_REGION_SHADOW
    else d.rd F.TIR_REGION_UNDO - d.reserveGiB
  others.sum + v ≤ 16384 * gib

/-- A quota register of kennel k (R341): writable while the kennel is ACTIVE; ignored with QERR where the region would be
exceeded. TIR_KFRATE has no sum. -/
def Dev.quotaWrite (d : Dev) (c : Cx) (id k : Nat) (a : Acs) : Dev :=
  if d.rd F.KNL_BIND_STATE k ≠ 1 then d
  else if id = Reg.TIR_KFRATE then d.putFields c a k [F.TIR_KFRATE_RATE, F.TIR_KFRATE_BURST]
  else
    let q := if id = Reg.TIR_KPIN then F.TIR_KPIN_QUOTA else if id = Reg.TIR_KLC then F.TIR_KLC_SHARE
      else if id = Reg.TIR_KSHD then F.TIR_KSHD_QUOTA else F.TIR_KUNDO_QUOTA
    if !a.covers q then d
    else if d.quotaFits q k (a.mix (d.rd q k) q) then d.putField c a k q
    else d.wr F.TIR_CTL_QERR 0 1

/-- LNK_CTL (R443): PLAIN, then EN, then RETRAIN. -/
def Dev.lnkCtlWrite (d : Dev) (c : Cx) (i : Nat) (a : Acs) : Dev :=
  let d := d.putField c a i F.LNK_CTL_PLAIN
  let d := if !a.covers F.LNK_CTL_EN then d
    else if a.sets F.LNK_CTL_EN then d.wr F.LNK_CTL_EN i 1
    else d.linkDisable i
  if a.sets F.LNK_CTL_RETRAIN then d.retrainLink c i else d

/-- CXP_DCREG (R429): ignored with ERR where regions would overlap or reach the store capacity. -/
def Dev.dcregWrite (d : Dev) (c : Cx) (r : Nat) (a : Acs) : Dev :=
  if c.lock then d
  else
    let n := d.putFields c a r [F.CXP_DCREG_BASE, F.CXP_DCREG_SIZE]
    let base := n.rd F.CXP_DCREG_BASE r
    let size := n.rd F.CXP_DCREG_SIZE r
    let clash := (List.range 8).any fun j => j ≠ r && decide (base < n.rd F.CXP_DCREG_BASE j + n.rd F.CXP_DCREG_SIZE j) &&
      decide (n.rd F.CXP_DCREG_BASE j < base + size)
    if size ≠ 0 && (c.variant.storeGiB < base + size || clash) then d.wr F.CXP_DCSTAT_ERR 0 1 else n

/-- The stored map is loaded once MAP_NODE is set and step 7 of start-up has ended (R71, R547): the kennel entries are restored, a
revocation resumes at step 4, host extents are offered, and later commits are asked for. DEDUCED (log 23). -/
def Dev.loadStored (d : Dev) (c : Cx) : Dev :=
  if d.rd F.PWR_SEQ_PHASE ≠ 5 || d.rd F.MAP_NODE_VALID = 0 || d.rd F.MAP_EPOCH_EPOCH ≠ 0 then d
  else match d.stored with
    | none => d.fetch c
    | some m =>
      let d := { d with regs := d.storedKnl.foldl (fun t (k, x) => tset t k x) d.regs }.redrain
      let d := (d.mapInForce c m).goReady c
      let offered := (d.instances F.KNL_BIND_STATE).filter fun k =>
        d.rd F.KNL_BIND_STATE k = 1 && d.rd F.KNL_BIND_HOSTEXT k = 1 && !(d.extents.any fun e => e.knl = k)
      (offered.foldl (fun d k => d.offerExt c k) d).fetch c

/-- MAP_NODE (R71, R444, R474): a node that becomes valid starts key agreement on links that wait for it. -/
def Dev.nodeWrite (d : Dev) (c : Cx) (a : Acs) : Dev :=
  let was := d.rd F.MAP_NODE_VALID
  let d := d.putFields c a 0 [F.MAP_NODE_NODE, F.MAP_NODE_VALID]
  if was = 0 && d.rd F.MAP_NODE_VALID = 1 then (d.nodeValid c).loadStored c else d

/-! ### One register -/

/-- Power, faults and the root of trust; none for a register without a rule of its own. -/
def Dev.writeSys (d : Dev) (c : Cx) (sig : Bool) (img : ImgSig) (id i : Nat) (a : Acs) (fs : List Fld) : Option Dev :=
  if id = Reg.SYS_LOCK then some d
  else if id = Reg.PWR_OFFREQ then some (if a.sets F.PWR_OFFREQ_GO then d.powerDown else d)
  else if id = Reg.PWR_DCTL then
    some (if a.covers F.PWR_DCTL_REQ then d.domainWrite c i (a.sets F.PWR_DCTL_REQ) else d)
  else if id = Reg.RAS_RESET then some (if a.sets F.RAS_RESET_GO then d.requestReset c 3 else d)
  else if id = Reg.RAS_FENCE then
    some (if a.covers F.RAS_FENCE_KIND then d.rasFence c (a.get F.RAS_FENCE_KIND) (a.get F.RAS_FENCE_INSTANCE) (a.get F.RAS_FENCE_OP)
      else d)
  else if id = Reg.RAS_LKCFG then some (d.lkcfgWrite c i a)
  else if id = Reg.SEC_MBCMD then
    let d := d.putFields c a i fs
    some (if a.sets F.SEC_MBCMD_GO then d.mbGo c sig img else d)
  else if id = Reg.SHP_CTL then some (d.shpCtlWrite c i a)
  else none

/-- Windows, rings and functions. -/
def Dev.writeRing (d : Dev) (c : Cx) (id i : Nat) (a : Acs) (fs : List Fld) : Option Dev :=
  if id = Reg.XLT_WBASE then
    some (d.pfWrite (d.rd F.XLT_WCTL_COLLAR i) fun d => if d.rd F.XLT_WCTL_ST i = 0 then d.putFields c a i fs else d)
  else if id = Reg.XLT_WCTL then some (d.wctlWrite c i a)
  else if id = Reg.RNG_BIND then some (d.bindWrite c i a)
  else if id = Reg.RNG_CTL then some (d.ringCtlWrite c i a)
  else if id = Reg.RNG_DBASE || id = Reg.RNG_CBASE || id = Reg.RNG_BAYS || id = Reg.RNG_IRQ then some (d.ringFieldWrite c id i a fs)
  else if id = Reg.FN_CTL then some (d.fnCtlWrite c i a)
  else if id = Reg.FN_VEC || id = Reg.FN_IRQF || id = Reg.FN_XLT_ROOT then some (d.fnFieldWrite c id i a fs)
  else if id = Reg.FN_FRBASE then some (d.frBaseWrite c i a)
  else if id = Reg.FN_FRCTL then some (d.frCtlWrite c i a)
  else none

/-- Leashes, tiers, links, the port and the map. -/
def Dev.writeRest (d : Dev) (c : Cx) (id i : Nat) (a : Acs) : Option Dev :=
  if id = Reg.LSHF_RATE || id = Reg.LSHF_WGT then some (d.leashWrite c lshFn 0 i a (id = Reg.LSHF_WGT))
  else if id = Reg.LSHS_RATE || id = Reg.LSHS_WGT then some (d.leashWrite c lshService 1 i a (id = Reg.LSHS_WGT))
  else if id = Reg.LSHP_RATE || id = Reg.LSHP_WGT then some (d.leashWrite c lshPort 2 i a (id = Reg.LSHP_WGT))
  else if id = Reg.TIR_REGION then some (d.regionWrite c a)
  else if id = Reg.TIR_CTL then some (d.tirCtlWrite c a)
  else if id = Reg.TIR_KPIN || id = Reg.TIR_KLC || id = Reg.TIR_KSHD || id = Reg.TIR_KUNDO || id = Reg.TIR_KFRATE then
    some (d.quotaWrite c id i a)
  else if id = Reg.LNK_CTL then some (d.lnkCtlWrite c i a)
  else if id = Reg.CXP_DCREG then some (d.dcregWrite c i a)
  else if id = Reg.MAP_NODE then some (d.nodeWrite c a)
  else none

/-- Write a register's instance; an absent one ignores the write (R5). -/
def Dev.writeReg (d : Dev) (c : Cx) (sig : Bool) (img : ImgSig) (r : RegDef) (i : Nat) (a : Acs) : Dev :=
  if !instPresent c.variant r.pres i then d
  else match (d.writeSys c sig img r.id i a r.flds).orElse fun _ => (d.writeRing c r.id i a r.flds).orElse fun _ =>
      d.writeRest c r.id i a with
    | some d => d
    | none => d.putFields c a i r.flds

/-- Write PF0 BAR0: through a window, each instance of the target set in turn (R577). -/
def Dev.writeBar0 (d : Dev) (c : Cx) (sig : Bool) (img : ImgSig) (off width v : Nat) : Dev :=
  match span off width with
  | none => d
  | some (lo, n) => (d.targets c.variant (off / 8 * 8)).foldl (fun d o => match regAt o with
    | some (r, i) => d.writeReg c sig img r i ⟨lo, n, v⟩
    | none => d) d

/-- Write to a function's BAR (R153, R186, R405): doorbells, the MSI-X table; everything else ignores it. -/
def Dev.writeFn (d : Dev) (c : Cx) (f off width v : Nat) (tee : Bool) : Dev :=
  match span off width with
  | none => d
  | some (lo, n) =>
    let w := v % 2 ^ n
    let at_ := off / 8 * 8
    if off < 0x1000 then
      if lo ≠ 0 then d
      else if at_ < 0x200 then d.doorbellAt f (at_ / 8) tee fun d r => d.tailDoorbell c r w none
      else if at_ < 0x400 then d.doorbellAt f ((at_ - 0x200) / 8) tee fun d r => d.cheadDoorbell c r w none
      else if at_ = 0x400 then d.fheadDoorbell c f w none
      else d
    else if 0x2000 ≤ off && off < 0x2400 && (off - 0x2000) / 16 < d.rd F.FN_VEC_COUNT f then
      let e := (off - 0x2000) / 16
      (List.range (width / 4)).foldl (fun d k =>
        let word := (off - 0x2000) % 16 / 4 + k
        let x := w / 2 ^ (32 * k) % 2 ^ 32
        if word = 3 then
          if x % 2 = 0 then { d with msix := tset d.msix ((64 * f + e) * 4 + 3) (x + 1) }.unmaskVec f e
          else { d with msix := tset d.msix ((64 * f + e) * 4 + 3) x }
        else { d with msix := tset d.msix ((64 * f + e) * 4 + word) x }) d
    else d

/-- MSI-X Enable and Function Mask of a function (R406): HOST vectors that waited for them are sent. -/
def Dev.writeMsixCtl (d : Dev) (f v : Nat) : Dev :=
  let d := { d with msixCtl := tput 0 d.msixCtl f (v % 4) }
  if v % 4 ≠ 1 then d
  else ((d.pba.filter fun p => p / 64 = f && !d.bitAt F.FN_IRQF_FABRIC f (p % 64) && !bit (d.msixWord f (p % 64) 3) 0)).foldl
    (fun d p => { d with pba := d.pba.filter (· ≠ p) }.sendVec f (p % 64)) d

/-- VF Enable and NumVFs: NumVFs changes while VF Enable is clear, and clearing VF Enable quiesces every VF (R394, R434). -/
def Dev.writeSriov (d : Dev) (v : Nat) : Dev :=
  if bit v 0 then if d.vfEnable then d else { d with vfEnable := true, numVfs := min 512 (v / 2 ^ 16 % 2 ^ 16) }
  else { d.vfDisable with numVfs := if d.vfEnable then d.numVfs else min 512 (v / 2 ^ 16 % 2 ^ 16) }

/-- A write in one of the address spaces. -/
def Dev.writeSpace (d : Dev) (c : Cx) (sp : Space) (off width v : Nat) (tee sig : Bool) (img : ImgSig) : Dev :=
  if !d.pf0Up then d
  else match sp with
    | .pf0 => d.writeBar0 c sig img off width v
    | .fn f => if d.fnUp f && d.teeOk f tee then d.writeFn c f off width v tee else d
    | .msixCtl f => if d.fnUp f then d.writeMsixCtl f v else d
    | .sriov => d.writeSriov v
    | .biCtl => if bit v 0 then { d with biEnable := true } else if d.hdm.isEmpty then { d with biEnable := false } else d
    | .bar4 => d

/-! ### The rows -/

/-- A register write by PF0 software, while it reaches BAR0. -/
def State.pf0 (s : State) (f : Cx → Dev → Dev) : Host.Outcome State Fault Refusal :=
  s.run fun c d => if d.pf0Up then f c d else d

/-- SYS_LOCK.LOCK = 1 (R8). -/
def execSysLock (s : State) : Host.Outcome State Fault Refusal :=
  .next { s with lock := s.lock || s.dev.pf0Up }

/-- XLT_WCTL of a window, with OPEN = 1. DESIGN CHOICE (log 20). -/
def execWindowOpen (window value : Nat) (s : State) : Host.Outcome State Fault Refusal :=
  s.pf0 fun c d => if window < 8192 then d.wctlWrite c window (whole (value ||| 2 ^ 56)) else d

/-- FN_FRCTL of a function, with EN = 1. DESIGN CHOICE (log 20). -/
def execFaultRingEnable (fn value : Nat) (s : State) : Host.Outcome State Fault Refusal :=
  s.pf0 fun c d => if fn ≤ 512 then d.frCtlWrite c fn (whole (value ||| 1)) else d

/-- TIR_CTL with EN = 1. DESIGN CHOICE (log 20). -/
def execTierEnable (value : Nat) (s : State) : Host.Outcome State Fault Refusal :=
  s.pf0 fun c d => d.tirCtlWrite c (whole (value ||| 1))

/-- A quota register of a kennel: 0 TIR_KPIN, 1 TIR_KLC, 2 TIR_KSHD, 3 TIR_KUNDO, 4 TIR_KFRATE. -/
def execQuotaWrite (knl kind value : Nat) (s : State) : Host.Outcome State Fault Refusal :=
  s.pf0 fun c d => if knl < 2048 && kind < 5 then d.quotaWrite c (Reg.TIR_KPIN + kind) knl (whole value) else d

/-- LSH_RATE or LSH_WGT of a leash: level 0 function, 1 service, 2 port. -/
def execLeashWrite (level inst : Nat) (wgt : Bool) (value : Nat) (s : State) : Host.Outcome State Fault Refusal :=
  s.pf0 fun c d => match level with
    | 0 => if inst < 513 then d.leashWrite c lshFn 0 inst (whole value) wgt else d
    | 1 => if inst < 4104 then d.leashWrite c lshService 1 inst (whole value) wgt else d
    | 2 => if inst < 304 then d.leashWrite c lshPort 2 inst (whole value) wgt else d
    | _ => d

/-- RAS_LKCFG of a kind. -/
def execRasLkcfgWrite (kind value : Nat) (s : State) : Host.Outcome State Fault Refusal :=
  s.pf0 fun c d => if kind < 7 then d.lkcfgWrite c kind (whole value) else d

/-- SHP_CTL of a bay, with TRACE_EN = 1. DESIGN CHOICE (log 20). -/
def execTraceEnable (bay value : Nat) (s : State) : Host.Outcome State Fault Refusal :=
  s.pf0 fun c d => if bay < 32 then d.shpCtlWrite c bay (whole (value ||| 2 ^ 8)) else d

/-- Show what a read returned. -/
def Dev.shown (x : Dev × Option Nat) : Dev := match x with
  | (d, some w) => d.emit (.value w)
  | (d, none) => d

/-- A 64-bit read of PTR_PDATA0 of a slice. -/
def execPtrPdata0 (slice : Nat) (s : State) : Host.Outcome State Fault Refusal :=
  s.run fun c d => Dev.shown (d.readSpace c .pf0 (0x1C00038 + slice % 16 * 0x10000) 8 false)

/-- A 64-bit read of SHP_TDATA0. -/
def execShpTdata0 (s : State) : Host.Outcome State Fault Refusal :=
  s.run fun c d => Dev.shown (d.readSpace c .pf0 0x1A00108 8 false)

/-- A 64-bit read of RTV_RDATA0. -/
def execRtvRdata0 (s : State) : Host.Outcome State Fault Refusal :=
  s.run fun c d => Dev.shown (d.readSpace c .pf0 0x5000020 8 false)

/-- A read in one of the address spaces; RC fields of PF0 BAR0 wholly covered are cleared (R581). DESIGN CHOICE (log 20). -/
def execRegisterReadClear (sp : Space) (off width : Nat) (tee : Bool) (s : State) : Host.Outcome State Fault Refusal :=
  s.run fun c d => Dev.shown (d.readSpace c sp off width tee)

/-- A write through a broadcast or group window (R577). -/
def execWindowWrite (off width value : Nat) (s : State) : Host.Outcome State Fault Refusal :=
  s.pf0 fun c d => if (windowOf off).isSome then d.writeBar0 c false {} off width value else d

/-- A read through a window (R578). -/
def execWindowRead (off width : Nat) (s : State) : Host.Outcome State Fault Refusal :=
  s.run fun c d => if (windowOf off).isSome then Dev.shown (d.readSpace c .pf0 off width false) else d

/-- A register write; `sig` and `img` are what the signature checks of a SEC mailbox command find, `tee` the T bit of an access
to a function's BAR. DESIGN CHOICE (log 20). -/
def execRegisterWrite (sp : Space) (off width value : Nat) (tee sig : Bool) (img : ImgSig) (s : State) :
    Host.Outcome State Fault Refusal :=
  let locks := sp = .pf0 && off = 0x10 && (span off width).isSome && bit value 0 && s.dev.pf0Up
  .next { s with dev := s.dev.writeSpace s.cx sp off width value tee sig img, lock := s.lock || locks }

end Sys2Proof.Machine
end

