-- ==== Sys2Proof/Machine/Power.lean ====
section
/-! DEFINITION. Start-up, the input, the sensors, the clocks and the margins (spec/17, R531 to R547, R551; spec/15, R500,
R501; spec/16, R509 to R511; spec/13, R419): rows POWER_ON to MARGIN_MEASUREMENT, CXL_LINK_UP, INPUT_REMOVAL and
DEVICE_LOST. -/
namespace Sys2Proof.Machine

/-! ### Start-up (R546) -/

/-- What manufacture left, at the first power-on (R502, R505, R508): fuses, boot flash, certificates and empty flash. DESIGN CHOICE (log 8). -/
def Dev.manufacture (d : Dev) (v : Variant) (m : Mfg) : Dev :=
  if d.made then d
  else
    let d := { d with made := true, bootFlash := memPut (memPut [] 0 m.slotA) (2 ^ 25) m.slotB, nvActive := m.active % 2,
                      nvOk := m.ok, certs := m.certs }
    let d := (d.wr F.SEC_FUSE_FUSED 0 m.fused).wr F.SEC_FUSE_PROD 0 (if m.prod then 1 else 0)
    let d := (d.wr F.SEC_FUSE_EREVOKE 0 m.erevoke).wr F.SEC_FUSE_LREVOKE 0 m.lrevoke
    (List.range v.channels).foldl (fun d ch => d.wr F.FLS_SPACE_FREE ch rawSlots) d

/-- The reset values of TIR_REGION by ordering code (R327). -/
def Dev.regionReset (d : Dev) (v : Variant) : Dev :=
  let big := v.stacks = 8
  let d := (d.wr F.TIR_REGION_UNDO 0 (if big then 32 else 16)).wr F.TIR_REGION_SHADOW 0 (if big then 32 else 16)
  let d := d.wr F.TIR_REGION_PINNED 0 (if big then 256 else 128)
  (d.wr F.TIR_REGION_META 0 (if v.dies = 4 then 9 else 5)).wr F.TIR_REGION_LC 0 (dramGiB v - d.regionsGiB v)

/-- PWR_SEQ.PHASE while a step runs. DEDUCED (log 81). -/
def upPhase (k : Nat) : Nat := [0, 0, 0, 1, 2, 2, 3, 4, 5].getD k 5

/-- Step k begins; step 8 is software's. From step 3 MSTATE is RESETTING. DEDUCED (log 81). -/
def Dev.enterStep (d : Dev) (c : Cx) (k : Nat) : Dev :=
  let d := { d with upStep := if k = 8 then 0 else k, upAt := c.tmr }.wr F.PWR_SEQ_PHASE 0 (upPhase k)
  if k = 3 then (d.wr F.PWR_DCTL_STATE 110 1).wr F.RAS_STAT_MSTATE 0 1 else d

/-- Power-on, step 1: the straps are sampled (R565) and the always-on domain runs. DESIGN CHOICE (log 8). UNVERIFIED (log 83). -/
def Dev.powerUp (d : Dev) (c : Cx) (mfg : Mfg) (slotid : Nat) (recov : Bool) : Dev :=
  let d := ((d.manufacture c.variant mfg).regionReset c.variant).wr F.PWR_CAP_LIMIT 0 c.variant.designPower
  let d := (d.wr F.SYS_STRAP_SLOTID 0 slotid).wr F.SYS_STRAP_RECOVERY 0 (if recov then 1 else 0)
  (d.wr F.PWR_DCTL_STATE 112 1).enterStep c 1

/-- Step 3 (R509, R510): the RTP boots, or the module enters recovery. DEDUCED (log 81). -/
def Dev.upBoot (d : Dev) (sigs : ImgSig × ImgSig) : Dev × Bool :=
  if d.rtp = 2 then (d, false)
  else if d.rd F.SYS_STRAP_RECOVERY = 1 then (d.recovery, false)
  else match d.rtpBoot sigs with
    | (d, true) => (d, true)
    | (d, false) => (d.recovery, false)

/-- Step 4: the domains of present resources are on, every PLL is locked, links are DOWN. -/
def Dev.upDomains (d : Dev) (v : Variant) : Dev :=
  let d := (List.range 112).foldl (fun d k => if domPresent v k then d.wr F.PWR_DCTL_STATE k 1 else d) d
  let d := (List.range v.links).foldl (fun d i => d.wr F.LNK_STAT_STATE i 1) d
  d.wr F.CLK_STAT_LOCK 0 (plls v)

/-- Step 5: steps 4 and 5 of R509, and power-good. DRM_SALT is drawn: a free value. -/
def Dev.upServe (d : Dev) : Dev :=
  let (x, d) := d.pick
  { (d.wr F.DRM_SALT_SALT 0 x).loadSteps with rtp := 1, pwrgd := true }

/-- The module rejoins its pack as a replacement for its own position (R391, R551). DEDUCED (log 82). -/
def Dev.rejoin (d : Dev) : Dev :=
  let own (m : ModRec) : ModRec := if m.pack.isSome then { m with rebuilding := true } else m
  { d with stored := d.stored.map fun (m : MapRecs) =>
      { m with modules := m.modules.map fun (x : ModRec) => if x.node = m.node then own x else x } }

/-- Step 7 (R551): a save is restored when the keepers report its EPC_LAST as the last committed heel and the position is
not lost; otherwise it is discarded. EPC_LAST is what the keepers report (R391). DEDUCED (log 23). -/
def Dev.upRestore (d : Dev) (report : Option (Nat × Bool)) : Dev :=
  let last := match report with
    | some (e, _) => e
    | none => 0
  let good := match d.save with
    | some s => decide (report = some (s.last, false))
    | none => false
  let n := { d with save := none }.wr F.EPC_LAST_LAST 0 last
  match d.save, good with
  | some s, true =>
    let fmap := s.pins.foldl (fun t (u, _) => tset t u UnitHome.pinned) n.fmap
    { n with fmap := fmap, pins := s.pins, tens := s.tens, undo := s.undo, redir := s.redir }.wr F.PWR_SEQ_SAVED 0 1
  | _, _ => { n with redir := n.redirFlash }.rejoin

/-- One step ends in time; false where it does not end. -/
def Dev.upEnd (d : Dev) (c : Cx) (sigs : ImgSig × ImgSig) (report : Option (Nat × Bool)) : Dev × Bool :=
  match d.upStep with
  | 3 => d.upBoot sigs
  | 4 => (d.upDomains c.variant, true)
  | 5 => (d.upServe, true)
  | 7 => (d.upRestore report, true)
  | _ => (d, true)

/-- After step 7: a power-down that waits starts; else the stored map is loaded when MAP_NODE is set (R547). -/
def Dev.upDone (d : Dev) (c : Cx) : Dev := if d.offStep = 9 then d.beginOff else d.loadStored c

/-- The steps up to `reach` end, at most n of them. -/
def Dev.upSteps (c : Cx) (reach : Nat) (sigs : ImgSig × ImgSig) (report : Option (Nat × Bool)) : Nat → Dev → Dev
  | 0, d => d
  | n + 1, d =>
    let k := d.upStep
    if k = 0 || reach < k then d
    else match d.upEnd c sigs report with
      | (d, true) =>
        let d := d.enterStep c (k + 1)
        if k = 7 then d.upDone c else Dev.upSteps c reach sigs report n d
      | (d, false) => d

/-- Power-on, or start-up going on: the steps up to `reach` end in time. `mfg`: what manufacture left, used at the first
power-on; `slotid`, `recov`: the straps; `sigs`: what the signature checks of the two slots find; `report`: the last
committed heel the keepers report, and whether the map lists the module's position as lost. TMR starts at 0 (R545) and
SYS_LOCK.LOCK is clear (R8). DESIGN CHOICE (log 8). -/
def execPowerOn (mfg : Mfg) (slotid : Nat) (recov : Bool) (reach : Nat) (sigs : ImgSig × ImgSig) (report : Option (Nat × Bool))
    (s : State) : Host.Outcome State Fault Refusal :=
  if s.dev.aon then s.run fun c d => d.upSteps c reach sigs report 7
  else
    let s := { s with tmr := 0, lock := false }
    s.run fun c d => (d.powerUp c mfg slotid recov).upSteps c reach sigs report 7

/-- The limit of the step in progress, in TMR ticks (R546). Recovery has none. -/
def Dev.upLimit (d : Dev) (v : Variant) : Nat :=
  let saved := match d.save with
    | some s => 65536 * s.pins.length + (s.tens.map fun (_, t) => t.data.length).sum + 4096 * s.undo.length
    | none => 0
  if d.upStep = 7 then 200000000 + saved / (if v.dies = 4 then 400 else 200)
  else 100000 * [0, 5, 10, 45, 10, 21, 500].getD d.upStep 0

/-- A step of start-up exceeds its limit (R546). -/
def execStartupStepLimit (s : State) : Host.Outcome State Fault Refusal :=
  s.run fun c d =>
    if d.upStep = 0 || d.rtp = 2 || c.tmr ≤ d.upAt + d.upLimit c.variant then d
    else (d.stop c.variant 9 5).alert 6

/-! ### The input (R531, R533) -/

/-- The input has been outside 30 V to 42 V for 100 µs. `over`: above 42 V. DEDUCED (log 81). -/
def execProtectiveShutdown (high : Bool) (s : State) : Host.Outcome State Fault Refusal :=
  s.run fun c d =>
    if !d.aon || 8 ≤ d.rd F.PWR_SEQ_PHASE then d else d.stop c.variant 9 (if high then 3 else 2)

/-- The input is back after a protective shutdown: start-up from step 2; the steps up to `reach` end in time. DEDUCED (log 5). -/
def execInputRecovery (reach : Nat) (sigs : ImgSig × ImgSig) (report : Option (Nat × Bool)) (s : State) :
    Host.Outcome State Fault Refusal :=
  let d := s.dev
  if d.aon && d.rd F.PWR_SEQ_PHASE = 9 && (d.rd F.PWR_SEQ_OFFCAUSE = 2 || d.rd F.PWR_SEQ_OFFCAUSE = 3) then
    let s := { s with lock := false }
    s.run fun c d => ((d.regionReset c.variant).enterStep c 2).upSteps c reach sigs report 7
  else .next s

/-- The input falls below 20 V: the always-on domain goes off as well. -/
def execInputRemoval (s : State) : Host.Outcome State Fault Refusal :=
  s.run fun c d => if d.aon then d.cold c.variant false else d

/-! ### Thermal (R540, R541) -/

/-- Is a temperature sensor present? -/
def sensorPresent (v : Variant) (n : Nat) : Bool :=
  n < 16 || (decide (16 ≤ n) && decide (n < 16 + 2 * v.dies)) || (decide (24 ≤ n) && decide (n < 24 + v.stacks)) ||
    (decide (32 ≤ n) && decide (n < 32 + v.dies)) || n = 36 || n = 37

/-- The points of sensor n in 1/16 °C: throttle (of those that act on D), alert and trip; none where there is none. -/
def throttlePoint (n : Nat) : Option Int := if n < 24 then some 1600 else if n < 32 then some 1472 else none
def alertPoint (n : Nat) : Option Int :=
  if n < 24 then some 1680 else if n < 32 then some 1520 else if n < 36 then some 1200 else if n = 36 then some 720 else none

/-- The temperature of sensor n, once it has been read. -/
def Dev.temp (d : Dev) (n : Nat) : Option Int :=
  if d.rd F.PWR_TEMP_VALID n = 1 then some (toSigned 16 (d.rd F.PWR_TEMP_TEMP n)) else none

/-- Is sensor n at or above a point, lowered by `by_`? DEDUCED (log 84). -/
def Dev.hot (d : Dev) (point : Nat → Option Int) (by_ : Int) (n : Nat) : Bool :=
  match d.temp n, point n with
  | some t, some p => decide (p - by_ ≤ t)
  | _, _ => false

/-- A sensor at its trip point (R541): every switched domain goes off and the trip is latched. -/
def execThermalTrip (sensor : Nat) (s : State) : Host.Outcome State Fault Refusal :=
  s.run fun c d =>
    if !d.aon || 36 ≤ sensor || !sensorPresent c.variant sensor then d
    else
      let d := d.stop c.variant (if d.rd F.PWR_SEQ_PHASE = 8 then 8 else 9) 4
      { d with tripped := true }

/-- One reading (R540): TEMP, and MAX since power-on. -/
def Dev.readSensor (d : Dev) (n t : Nat) : Dev :=
  let high := match d.temp n with
    | some _ => max (toSigned 16 (d.rd F.PWR_TEMP_MAX n)) (toSigned 16 t)
    | none => toSigned 16 t
  ((d.wr F.PWR_TEMP_TEMP n t).wr F.PWR_TEMP_MAX n (ofSigned 16 high)).wr F.PWR_TEMP_VALID n 1

/-- Throttling: D falls by 1 while a sensor is at its point, and may rise again only when every one is 2 °C below. DEDUCED (log 84). -/
def Dev.throttle (d : Dev) : Dev :=
  if (List.range 32).any (d.hot throttlePoint 0) then
    (d.wr F.PWR_CAP_THERMAL 0 1).wr F.PWR_CAP_DUTY 0 (max 8 (d.rd F.PWR_CAP_DUTY - 1))
  else if (List.range 32).any fun n => d.hot throttlePoint 31 n then d
  else d.wr F.PWR_CAP_THERMAL 0 0

/-- The level causes of the alert mask are set again while their conditions hold (R567). -/
def Dev.levelCauses (d : Dev) : Dev :=
  let set (d : Dev) (b : Nat) (on : Bool) : Dev := if on then d.alert b else d
  let d := set d 0 (d.rd F.PWR_SEQ_VWARN = 1)
  let d := set d 1 ((List.range 38).any (d.hot alertPoint 0))
  let d := set d 5 (d.rtp = 2)
  let d := set d 6 (d.rd F.PWR_SEQ_PHASE = 9 && d.rd F.PWR_SEQ_OFFCAUSE = 5)
  set d 7 (d.lostFor ≠ 0)

/-- The 1 ms evaluation. `temps`: the sensors read, each with its TEMP. DEDUCED (log 84). -/
def execSensorSample (temps : List (Nat × Nat)) (s : State) : Host.Outcome State Fault Refusal :=
  s.run fun c d =>
    if !d.aon then d
    else ((temps.filter fun (n, _) => sensorPresent c.variant n).foldl (fun d (n, t) => d.readSensor n t) d).throttle.levelCauses

/-! ### The power cap (R537 to R539) -/

/-- The cap that acts, in µW. DEDUCED (log 84). -/
def Dev.capMicro (d : Dev) (v : Variant) : Nat :=
  1000000 * max (v.designPower / 2) (min v.designPower (d.rd F.PWR_CAP_LIMIT))

/-- The 1 ms average of input power, in µW. DEDUCED (log 84). -/
def Dev.avgMicro (d : Dev) : Nat := (d.inputs.map fun (mv, ma) => mv * ma).sum / max 1 d.inputs.length

/-- PWR_IN shows the 1 ms averages. DEDUCED (log 84). -/
def Dev.showInput (d : Dev) : Dev :=
  let n := max 1 d.inputs.length
  let volt := (d.inputs.map fun (mv, _) => mv).sum / n
  let curr := (d.inputs.map fun (_, ma) => ma).sum / n
  ((d.wr F.PWR_IN_VOLT 0 (min volt 65535)).wr F.PWR_IN_CURR 0 (min curr 65535)).wr F.PWR_IN_POWER 0
    (min (d.avgMicro / 100000) 65535)

/-- The 10 µs input sample: voltage in mV and current in mA. DEDUCED (log 84). -/
def execPowerSample (mv ma : Nat) (s : State) : Host.Outcome State Fault Refusal :=
  s.run fun c d =>
    if !d.aon then d
    else
      let d := if d.rd F.PWR_CAP_DUTY < 64 then d.inc F.PWR_THR_CAPPED_US 0 10 else d
      let d := if d.rd F.PWR_CAP_THERMAL = 1 then d.inc F.PWR_THR_THERMAL_US 0 10 else d
      let e := d.energyRem + mv * ma
      let d := { d with inputs := ((mv, ma) :: d.inputs).take 100, energyRem := e % 100000000 }
      let d := (d.bump F.PWR_ENERGY_MJ 0 (e / 100000000)).showInput
      let warn := decide (mv < 32000) || decide (40000 < mv)
      let d := d.wr F.PWR_SEQ_VWARN 0 (if warn then 1 else 0)
      let d := if warn then d.alert 0 else d
      if d.capMicro c.variant * 108 < mv * ma * 100 then d.wr F.PWR_CAP_DUTY 0 8 else d

/-- The 100 µs adjustment of D. -/
def execDutyAdjust (s : State) : Host.Outcome State Fault Refusal :=
  s.run fun c d =>
    let cap := d.capMicro c.variant
    let duty := d.rd F.PWR_CAP_DUTY
    if !d.aon then d
    else if cap < d.avgMicro then d.wr F.PWR_CAP_DUTY 0 (max 8 (duty - 1))
    else if d.avgMicro * 100 ≤ cap * 98 && d.rd F.PWR_CAP_THERMAL = 0 then d.wr F.PWR_CAP_DUTY 0 (min 64 (duty + 1))
    else d

/-! ### Clocks and margins -/

/-- The lock detector of PLL p drops (R544). -/
def execLostlock (pll : Nat) (s : State) : Host.Outcome State Fault Refusal :=
  s.run fun _ d =>
    if pll < 20 && d.bitAt F.CLK_STAT_LOCK 0 pll then (d.setBit F.CLK_STAT_LOCK 0 pll false).inc F.CLK_STAT_LOSTLOCK 0 else d

/-- One measurement against its minimum (R500): a MARGIN record at each crossing. `num` tells the measurements of a kind
apart. DEDUCED (log 85). -/
def Dev.margin (d : Dev) (c : Cx) (kind inst num val min_ : Nat) : Dev :=
  let key := kind * 2 ^ 32 + num
  if min_ ≤ val then { d with lowMargins := d.lowMargins.filter (· ≠ key) }
  else if d.lowMargins.contains key then d
  else { d with lowMargins := sadd d.lowMargins key }.fault c.tmr
    { type := 0x18, cls := 3, engine := 13, w20 := kind + 4 * inst, w28 := val + 2 ^ 16 * min_ }

/-- One link's eye: link, worst height in mV, worst width in mUI, lane. -/
def Dev.eye (d : Dev) (c : Cx) (i h w lane : Nat) : Dev :=
  (((d.wr F.RAS_LEYE_HEIGHT i h).wr F.RAS_LEYE_WIDTH i w).wr F.RAS_LEYE_LANE i lane).margin c 0 i i h (d.rd F.RAS_MCFG_EYE_MIN)

/-- One stack's timing margins in ps. -/
def Dev.dramMargin (d : Dev) (c : Cx) (i r w : Nat) : Dev :=
  let m := d.rd F.RAS_MCFG_DRAM_MIN
  (((d.wr F.RAS_DMARG_READ i r).wr F.RAS_DMARG_WRITE i w).margin c 1 i (2 * i) r m).margin c 1 i (2 * i + 1) w m

/-- One domain's voltage and its margin in mV. -/
def Dev.rail (d : Dev) (c : Cx) (i v m : Nat) : Dev :=
  ((d.wr F.RAS_VMARG_VOLT i v).wr F.RAS_VMARG_MARGIN i m).margin c 2 i i m (d.rd F.RAS_MCFG_V_MIN)

/-- The measurements of one period (R500, R501), of instances that are present; none while PERIOD is 0. Values are 16 bits
wide. DEDUCED (log 85). -/
def execMarginMeasurement (eyes : List (Nat × Nat × Nat × Nat)) (drams rails : List (Nat × Nat × Nat)) (s : State) :
    Host.Outcome State Fault Refusal :=
  s.run fun c d =>
    let v := c.variant
    let w (x : Nat) : Nat := x % 65536
    if !d.pwrgd || d.rd F.RAS_MCFG_PERIOD = 0 then d
    else
      let d := (eyes.filter fun (i, _) => i < v.links).foldl (fun d (i, h, x, l) => d.eye c i (w h) (w x) l) d
      let d := (drams.filter fun (i, _) => i < v.stacks).foldl (fun d (i, r, x) => d.dramMargin c i (w r) (w x)) d
      (rails.filter fun (i, _) => domPresent v i).foldl (fun d (i, x, m) => d.rail c i (w x) (w m)) d

/-- What a step does when no command waits: TMR counts while the always-on domain runs, and wraps at 2⁶⁴ (R545). DESIGN CHOICE (log 3, 92). -/
def State.tick (s : State) : State := if s.dev.aon then { s with tmr := (s.tmr + 1) % 2 ^ 64 } else s

/-! ### The port and the units -/

/-- The CXL port reaches DL_Up (R419, R546, R559): not before step 5 of start-up has ended, nor while PERST# is asserted, the
port's domain is off, or a module reset has not come to step 7; a lost module keeps it down (R494). `width`, `rate`: as
CXP_LSTAT codes them; `cxl`: CXL has been negotiated, at 8 GT/s or more; `lopt`: latency-optimised flits. MODE takes effect
(R421). DEDUCED (log 89). -/
def execCxlLinkUp (width rate : Nat) (cxl lopt : Bool) (s : State) : Host.Outcome State Fault Refusal :=
  s.run fun _ d =>
    if !d.pwrgd || d.perst || d.domState 109 ≠ 1 || d.lostFor ≠ 0 || d.rd F.CXP_LSTAT_UP 0 = 1 ||
        (d.resetTr.isSome && d.rstStep < 7) || ! [1, 2, 4, 8].contains width || rate = 0 || 6 < rate || (cxl && rate < 3) then d
    else
      let d := (d.wr F.CXP_LSTAT_WIDTH 0 width).wr F.CXP_LSTAT_RATE 0 rate
      let d := (d.wr F.CXP_LSTAT_CXL 0 (if cxl then 1 else 0)).wr F.CXP_LSTAT_LOPT 0 (if lopt then 1 else 0)
      { d.wr F.CXP_LSTAT_UP 0 1 with cxlMode := d.rd F.CXP_CFG_MODE }

/-- A whole stack, channel, I/O die or bridge stops answering (R493). DEDUCED (log 90). -/
def execDeviceLost (s : State) : Host.Outcome State Fault Refusal :=
  s.run fun c d => if d.pwrgd then d.lose c 5 else d

end Sys2Proof.Machine
end

