-- ==== Sys2Proof/Machine/Sideband.lean ====
section
/-! DEFINITION. The sideband (spec/18, R565 to R570): its vendor commands, PLDM, MCTP control and the I3C address; rows
ALERT_STATUS to CANCEL_UPDATE, MCTP_CONTROL, SETAASA and ENTDAA. -/
namespace Sys2Proof.Machine

/-! ### Responses -/

/-- A response with completion code SUCCESS and its fields. -/
def Dev.sideOk (d : Dev) (fields : List Nat) : Dev := d.emit (.sideband 0 fields)

/-- An error completion. -/
def Dev.sideErr (d : Dev) (code : Nat) : Dev := d.emit (.sideband code [])

/-- A request on the sideband: the always-on target takes it; in recovery it is answered with an error completion (R566). DEDUCED (log 86). -/
def Dev.side (d : Dev) (k : Dev → Dev) : Dev := if !d.aon then d else if d.rtp = 2 then d.sideErr 1 else k d

/-- A command that needs a secured session on MCTP, refused outside one. DEDUCED (log 86). -/
def Dev.secured (d : Dev) (sess : Option Nat) (k : Dev → Dev) : Dev :=
  d.side fun d => match sess with
    | none => d.sideErr 1
    | some id =>
      if d.sessions.any fun (x : Sess) => x.id = id && x.via = 1 && x.est then d.inSess id true fun d _ => k d else d.sideErr 1

/-! ### Alerts, faults and the map (R567 to R570) -/

/-- ALERT_STATUS: the mask, the depth of the fault queue and LOST. DEDUCED (log 86). -/
def execAlertStatus (s : State) : Host.Outcome State Fault Refusal :=
  s.run fun _ d => d.side fun d => d.sideOk [d.alerts, d.sideQ.length, d.sideLost]

/-- ALERT_CLEAR. -/
def execAlertClear (mask : Nat) (s : State) : Host.Outcome State Fault Refusal :=
  s.run fun _ d => d.side fun d => { d with alerts := d.alerts - (d.alerts &&& mask % 2 ^ 32) }.sideOk []

/-- FAULT_READ. DEDUCED (log 86). -/
def execFaultRead (s : State) : Host.Outcome State Fault Refusal :=
  s.run fun _ d => d.side fun d => { d with sideQ := d.sideQ.drop 4 }.sideOk (d.sideQ.take 4).flatten

/-- MAP_STATUS: MAP_EPOCH, MAP_KLOG.COMMITTED, and the fields of MAP_KEEP. -/
def execMapStatus (s : State) : Host.Outcome State Fault Refusal :=
  s.run fun _ d => d.side fun d => d.sideOk
    [d.rd F.MAP_EPOCH_EPOCH, d.rd F.MAP_KLOG_COMMITTED, d.rd F.MAP_KEEP_KEEPER, d.rd F.MAP_KEEP_LEAD, d.rd F.MAP_KEEP_KSET,
     d.rd F.MAP_KEEP_LEAD_NODE, d.rd F.MAP_KEEP_TERM]

/-- POWERDOWN (R548, R566). -/
def execPowerdown (sess : Option Nat) (s : State) : Host.Outcome State Fault Refusal :=
  s.run fun _ d => d.secured sess fun d => (d.sideOk []).powerDown

/-- MODULE_RESET (R489, R566). -/
def execVendorModuleReset (sess : Option Nat) (s : State) : Host.Outcome State Fault Refusal :=
  s.run fun c d => d.secured sess fun d => (d.sideOk []).requestReset c 4

/-- May the genesis entry be stored: MAP_NODE.VALID, the keeper role for this node, an empty log, and no election yet? DESIGN CHOICE (log 88). -/
def Dev.genesisOk (d : Dev) (recs : List MapRecs) : Bool :=
  d.rd F.MAP_NODE_VALID = 1 && recs.any (fun m => m.keepers.contains (d.rd F.MAP_NODE_NODE)) && d.kp.log.isEmpty &&
    d.rd F.MAP_KEEP_TERM = 0 && d.kp.voted.isNone

/-- MAP_GENESIS: the records of every module, as index 1. DESIGN CHOICE (log 88). -/
def execMapGenesis (sess : Option Nat) (recs : List MapRecs) (s : State) : Host.Outcome State Fault Refusal :=
  s.run fun c d => d.secured sess fun d =>
    if !d.genesisOk recs then d.sideErr 1
    else ({ d with kp := { d.kp with log := [⟨0, .records recs⟩], heard := c.tmr } }.commitTo 1).sideOk []

/-- MAP_PROPOSE: forwarded to the lead keeper; it completes once that is done. -/
def execMapPropose (sess : Option Nat) (ch : Change) (s : State) : Host.Outcome State Fault Refusal :=
  s.run fun _ d => d.secured sess fun d => (d.propose ch).sideOk []

/-- DBG_CHALLENGE (R529). -/
def execVendorDbgChallenge (s : State) : Host.Outcome State Fault Refusal :=
  s.run fun _ d => d.side fun d =>
    if d.rtp ≠ 1 then d.sideErr 1
    else
      let (d, n) := d.dbgChallenge
      d.sideOk [n]

/-- DBG_UNLOCK (R529): DENIED is an error completion. -/
def execVendorDbgUnlock (token : Bytes) (sig : Bool) (s : State) : Host.Outcome State Fault Refusal :=
  s.run fun c d => d.side fun d =>
    if d.rtp ≠ 1 then d.sideErr 1
    else match d.dbgUnlock c token sig with
      | (d, true) => d.sideOk []
      | (d, false) => d.sideErr 1

/-! ### PLDM types 0 and 2 (R566) -/

/-- GetTID. -/
def execGetTid (s : State) : Host.Outcome State Fault Refusal := s.run fun _ d => d.side fun d => d.sideOk [d.tid]

/-- SetTID: 0x00 and 0xFF name no terminus. -/
def execSetTid (tid : Nat) (s : State) : Host.Outcome State Fault Refusal :=
  s.run fun _ d => d.side fun d =>
    if tid = 0 || 255 ≤ tid then d.sideErr 2 else { d with tid := tid }.sideOk []

/-- GetPLDMVersion: the spec gives no version numbers, a free value. PRESUMED (log 87). -/
def execGetPldmVersion (type : Nat) (s : State) : Host.Outcome State Fault Refusal :=
  s.run fun _ d => d.side fun d =>
    if ! [0, 2, 5].contains type then d.sideErr 0x83
    else
      let (v, d) := d.pick
      d.sideOk [v]

/-- GetPLDMTypes: types 0, 2 and 5. PRESUMED (log 87). -/
def execGetPldmTypes (s : State) : Host.Outcome State Fault Refusal := s.run fun _ d => d.side fun d => d.sideOk [0x25]

/-- The command codes of a type. PRESUMED (log 87). -/
def pldmCommands (type : Nat) : List Nat :=
  match type with
  | 0 => [0x01, 0x02, 0x03, 0x04, 0x05]
  | 2 => [0x11, 0x21, 0x50, 0x51]
  | 5 => [0x01, 0x02, 0x10, 0x13, 0x14, 0x15, 0x16, 0x17, 0x18, 0x1A, 0x1B, 0x1C, 0x1D]
  | _ => []

/-- GetPLDMCommands. -/
def execGetPldmCommands (type : Nat) (s : State) : Host.Outcome State Fault Refusal :=
  s.run fun _ d => d.side fun d =>
    if ! [0, 2, 5].contains type then d.sideErr 0x83 else d.sideOk (pldmCommands type)

/-- The sensors, in order of their numbers: those of present instances. PRESUMED (log 87). -/
def pldmSensors (v : Variant) : List Nat :=
  [1, 2, 3, 4] ++ ((List.range 38).filter (sensorPresent v)).map (0x100 + ·) ++
    ((List.range 113).filter (domPresent v)).map (0x200 + ·) ++ [0x300, 0x301]

/-- GetPDR by record handle: handle, next handle (0 at the end), PDR type (2 numeric sensor, 4 state sensor), sensor. PRESUMED (log 87). -/
def execGetPdr (handle : Nat) (s : State) : Host.Outcome State Fault Refusal :=
  s.run fun c d => d.side fun d =>
    let h := if handle = 0 then 1 else handle
    let l := pldmSensors c.variant
    match l[h - 1]? with
    | some n => d.sideOk [h, if h < l.length then h + 1 else 0, if 0x300 ≤ n then 4 else 2, n]
    | none => d.sideErr 0x82

/-- GetPDRRepositoryInfo: the number of records. -/
def execGetPdrRepositoryInfo (s : State) : Host.Outcome State Fault Refusal :=
  s.run fun c d => d.side fun d => d.sideOk [(pldmSensors c.variant).length]

/-- The value of numeric sensor n; none when a temperature has not been read. -/
def Dev.sensorValue (d : Dev) (n : Nat) : Option Nat :=
  if n = 1 then some (d.rd F.PWR_IN_VOLT)
  else if n = 2 then some (d.rd F.PWR_IN_CURR)
  else if n = 3 then some (d.rd F.PWR_IN_POWER)
  else if n = 4 then some (d.rd F.PWR_ENERGY_MJ)
  else if n < 0x200 then if d.rd F.PWR_TEMP_VALID (n - 0x100) = 1 then some (d.rd F.PWR_TEMP_TEMP (n - 0x100)) else none
  else some (d.rd F.RAS_VMARG_VOLT (n - 0x200))

/-- GetSensorReading: operational state (0 enabled, 2 unavailable) and value. -/
def execGetSensorReading (sensor : Nat) (s : State) : Host.Outcome State Fault Refusal :=
  s.run fun c d => d.side fun d =>
    if !(pldmSensors c.variant).contains sensor || 0x300 ≤ sensor then d.sideErr 0x80
    else match d.sensorValue sensor with
      | some x => d.sideOk [0, x]
      | none => d.sideOk [2, 0]

/-- GetStateSensorReadings: MSTATE or PHASE. -/
def execGetStateSensorReadings (sensor : Nat) (s : State) : Host.Outcome State Fault Refusal :=
  s.run fun _ d => d.side fun d =>
    if sensor = 0x300 then d.sideOk [0, d.rd F.RAS_STAT_MSTATE]
    else if sensor = 0x301 then d.sideOk [0, d.rd F.PWR_SEQ_PHASE]
    else d.sideErr 0x80

/-! ### PLDM type 5: firmware update (R512 to R514, R566), also in recovery (R511) -/

/-- A firmware update command: the RTP takes it, in service or in recovery. PRESUMED (log 87). -/
def Dev.fwSide (d : Dev) (k : Dev → Dev) : Dev := if !d.aon then d else if d.rtp = 0 then d.sideErr 4 else k d

/-- The state of the update: idle again once its claim has ended before the image was complete (R512). -/
def Dev.updSt (d : Dev) : Nat :=
  let held := match d.claim with
    | some (1, _) => true
    | _ => false
  if d.pldm.st ≤ 3 && !held then 0 else d.pldm.st

/-- QueryDeviceIdentifiers: vendor and device. -/
def execQueryDeviceIdentifiers (s : State) : Host.Outcome State Fault Refusal :=
  s.run fun _ d => d.fwSide fun d => d.sideOk [d.rd F.SYS_ID_VENDOR, d.rd F.SYS_ID_DEVICE]

/-- GetFirmwareParameters: one component, the version that runs, and the version that is PENDING. -/
def execGetFirmwareParameters (s : State) : Host.Outcome State Fault Refusal :=
  s.run fun _ d => d.fwSide fun d => d.sideOk
    [1, d.rd F.SEC_FWSTAT_VERSION, if d.nvPending then d.imgNat (1 - d.nvActive) 0x10 4 else 0]

/-- RequestUpdate claims the update; 0x81 while this path has it, BUSY while the mailbox has. DESIGN CHOICE (log 66). -/
def execRequestUpdate (s : State) : Host.Outcome State Fault Refusal :=
  s.run fun c d => d.fwSide fun d =>
    if d.updSt ≠ 0 then d.sideErr 0x81
    else if d.claimed 1 then d.sideErr 0x86
    else { d with claim := some (1, c.tmr), pldm := { st := 1 } }.sideOk []

/-- A command of an update: 0x80 outside one, 0x84 in another state. -/
def Dev.updIn (d : Dev) (sts : List Nat) (k : Dev → Dev) : Dev :=
  d.fwSide fun d => if d.updSt = 0 then d.sideErr 0x80 else if sts.contains d.updSt then k d else d.sideErr 0x84

/-- PassComponentTable: one component, the whole image. -/
def execPassComponentTable (components : Nat) (s : State) : Host.Outcome State Fault Refusal :=
  s.run fun _ d => d.updIn [1] fun d =>
    if components = 1 then { d with pldm := { st := 2 } }.sideOk [] else d.sideErr 2

/-- RequestFirmwareData: the offset, and a length the spec leaves to the module. -/
def Dev.askData (d : Dev) : Dev :=
  let (n, d) := d.pick
  d.emit (.pldmReq 0x15 [d.pldm.got, 1 + n % (d.pldm.size - d.pldm.got)])

/-- UpdateComponent: the transfer of an image of `size` bytes starts. -/
def execUpdateComponent (size : Nat) (s : State) : Host.Outcome State Fault Refusal :=
  s.run fun _ d => d.updIn [2] fun d =>
    if size = 0 || 2 ^ 25 < size then d.sideErr 2
    else ({ d with pldm := { st := 3, size := size } }.sideOk []).askData

/-- The image is complete: TransferComplete, the check of R513 reported by VerifyComplete, and ApplyComplete. An image
delivered in recovery is slot A and is booted at once (R511). PRESUMED (log 87). -/
def Dev.imageDone (d : Dev) (c : Cx) (img other : ImgSig) : Dev :=
  let d := d.emit (.pldmReq 0x16 [0])
  match d.fwCommit img with
  | (d, false) => { d with pldm := { d.pldm with st := 5 } }.emit (.pldmReq 0x17 [1])
  | (d, true) =>
    let d := { d with pldm := { d.pldm with st := 4 } }.emits [.pldmReq 0x17 [0], .pldmReq 0x18 [0]]
    if d.rtp ≠ 2 then d
    else match d.rtpBoot (img, other) with
      | (d, true) => { d with rtp := 0, pldm := {} }.enterStep c 4
      | (d, false) => d

/-- Image data returned for RequestFirmwareData. `img`: what the signature checks of the slot written find; `other`: those of
slot B, should the image delivered in recovery not boot. DESIGN CHOICE (log 66). -/
def execFirmwareData (data : Bytes) (img other : ImgSig) (s : State) : Host.Outcome State Fault Refusal :=
  s.run fun c d => d.fwSide fun d =>
    if d.updSt ≠ 3 || data = [] then d
    else
      let d := if d.rtp = 2 then { d with nvActive := 1 } else d
      let b := data.take (d.pldm.size - d.pldm.got)
      let d := d.fwWrite c 1 d.pldm.got b
      let d := { d with pldm := { d.pldm with got := d.pldm.got + b.length } }
      if d.pldm.got < d.pldm.size then d.askData else d.imageDone c img other

/-- ActivateFirmware: activation takes place at the next module reset or power-on (R514). PRESUMED (log 87). -/
def execActivateFirmware (s : State) : Host.Outcome State Fault Refusal :=
  s.run fun _ d => d.updIn [2, 4] fun d =>
    if d.updSt = 2 then d.sideErr 0x85 else { d with pldm := {} }.sideOk [1]

/-- GetStatus: the state as DSP0267 names it (0 idle, 1 learn components, 2 ready to transfer, 3 download, 4 verify), bytes
received and bytes in all. -/
def execGetStatus (s : State) : Host.Outcome State Fault Refusal :=
  s.run fun _ d => d.fwSide fun d => d.sideOk
    [if d.updSt = 4 then 2 else if d.updSt = 5 then 4 else d.updSt, d.pldm.got, d.pldm.size]

/-- CancelUpdateComponent. -/
def execCancelUpdateComponent (s : State) : Host.Outcome State Fault Refusal :=
  s.run fun c d => d.updIn [3, 5] fun d => { d with pldm := { st := 2 }, claim := some (1, c.tmr) }.sideOk []

/-- CancelUpdate: the claim ends. -/
def execCancelUpdate (s : State) : Host.Outcome State Fault Refusal :=
  s.run fun _ d => d.updIn [1, 2, 3, 4, 5] fun d =>
    { d with pldm := {}, claim := if d.claimed 1 then d.claim else none }.sideOk []

/-! ### MCTP control and the I3C address (R565, R566) -/

/-- MCTP control, answered in every state: 1 Set Endpoint ID, 2 Get Endpoint ID, 3 Get Endpoint UUID, 4 Get MCTP Version
Support, 5 Get Message Type Support, 6 Get Vendor Defined Message Support. The spec gives neither the UUID nor the
versions: free values. PRESUMED (log 87). -/
def execMctpControl (cmd arg : Nat) (s : State) : Host.Outcome State Fault Refusal :=
  s.run fun _ d =>
    if !d.aon then d
    else match cmd with
      | 1 => if arg = 0 || 255 ≤ arg then d.sideErr 2 else { d with eid := arg }.sideOk [arg]
      | 2 => d.sideOk [d.eid]
      | 3 | 4 =>
        let (x, d) := d.pick
        d.sideOk [x]
      | 5 => d.sideOk (if d.rtp = 2 then [0x01, 0x05] else [0x01, 0x05, 0x06, 0x7E])
      | 6 => d.sideOk [d.rd F.SYS_ID_VENDOR]
      | _ => d.sideErr 5

/-- SETAASA: a target with a static address takes it as its dynamic address. DEDUCED (log 86). -/
def execSetaasa (s : State) : Host.Outcome State Fault Refusal :=
  s.run fun _ d =>
    if d.aon && d.rd F.SYS_STRAP_SLOTID ≤ 61 then { d with i3cAddr := some (0x40 + d.rd F.SYS_STRAP_SLOTID) } else d

/-- ENTDAA: a target without a static address takes the address assigned. DEDUCED (log 86). -/
def execEntdaa (addr : Nat) (s : State) : Host.Outcome State Fault Refusal :=
  s.run fun _ d =>
    if d.aon && 62 ≤ d.rd F.SYS_STRAP_SLOTID && d.i3cAddr.isNone then { d with i3cAddr := some (addr % 128) } else d

end Sys2Proof.Machine
end

