-- ==== Sys2Proof/Machine/StepCtl.lean ====
section
/-! DEFINITION. Steps that touch no memory beyond a thread's own registers: CTL (R197), LANE (R198) and CODEC (R240 to
R244). -/
namespace Sys2Proof.Machine

/-! ### CTL -/

/-- ZERO and NEG of a result (R200). DEDUCED (log 50). -/
def Thread.result (t : Thread) (v : Nat) : Thread := (t.setFlag 2 (v % 2 ^ 64 = 0)).setFlag 3 (bit v 63)

/-- A CTL step that puts f SRCA SRCB into S[DST], modulo 2⁶⁴. DEDUCED (log 50). -/
def Dev.ctlStep (d : Dev) (c : Cx) (bay thr op : Nat) (ecc : Option Ecc) (f : Nat → Nat → Nat) : Dev :=
  d.stepRow c bay thr 0 op ecc fun d t s =>
    let v := f (t.val s s.srca) (t.val s s.srcb) % 2 ^ 64
    let t := if kindOf s.dst = 2 then t.setS (idxOf s.dst) v else t
    d.stepEnd c bay thr (t.result v)

/-- CTL NOP: no operation; it has no result, so ZERO and NEG stay (R197). -/
def execCtlNop (bay thr : Nat) (ecc : Option Ecc) (s : State) : Host.Outcome State Fault Refusal :=
  s.run fun c d => d.stepRow c bay thr 0 0 ecc fun d t _ => d.stepEnd c bay thr t

/-- CTL LCSET: LC[LCSEL] ← SRCA[31:0]. -/
def execLcset (bay thr : Nat) (ecc : Option Ecc) (s : State) : Host.Outcome State Fault Refusal :=
  s.run fun c d => d.stepRow c bay thr 0 1 ecc fun d t s =>
    let v := t.val s s.srca % 2 ^ 32
    d.stepEnd c bay thr ({ t with lc := tput 0 t.lc s.lcsel v }.result v)

/-- CTL SMOV. -/
def execSmov (bay thr : Nat) (ecc : Option Ecc) (s : State) : Host.Outcome State Fault Refusal :=
  s.run fun c d => d.ctlStep c bay thr 2 ecc fun a _ => a

/-- CTL SADD. -/
def execSadd (bay thr : Nat) (ecc : Option Ecc) (s : State) : Host.Outcome State Fault Refusal :=
  s.run fun c d => d.ctlStep c bay thr 3 ecc fun a b => a + b

/-- CTL SSUB. -/
def execSsub (bay thr : Nat) (ecc : Option Ecc) (s : State) : Host.Outcome State Fault Refusal :=
  s.run fun c d => d.ctlStep c bay thr 4 ecc fun a b => a + 2 ^ 64 - b % 2 ^ 64

/-- CTL SAND. -/
def execSand (bay thr : Nat) (ecc : Option Ecc) (s : State) : Host.Outcome State Fault Refusal :=
  s.run fun c d => d.ctlStep c bay thr 5 ecc fun a b => a &&& b

/-- CTL SOR. -/
def execSor (bay thr : Nat) (ecc : Option Ecc) (s : State) : Host.Outcome State Fault Refusal :=
  s.run fun c d => d.ctlStep c bay thr 6 ecc fun a b => a ||| b

/-- CTL SSHL, by SRCB[5:0]. -/
def execSshl (bay thr : Nat) (ecc : Option Ecc) (s : State) : Host.Outcome State Fault Refusal :=
  s.run fun c d => d.ctlStep c bay thr 7 ecc fun a b => a * 2 ^ (b % 64)

/-- CTL SSHR, logical, by SRCB[5:0]. -/
def execSshr (bay thr : Nat) (ecc : Option Ecc) (s : State) : Host.Outcome State Fault Refusal :=
  s.run fun c d => d.ctlStep c bay thr 8 ecc fun a b => a % 2 ^ 64 / 2 ^ (b % 64)

/-- CTL SMUL. -/
def execSmul (bay thr : Nat) (ecc : Option Ecc) (s : State) : Host.Outcome State Fault Refusal :=
  s.run fun c d => d.ctlStep c bay thr 9 ecc fun a b => a * b

/-! ### LANE (R198) -/

/-- Bits of an element of a FMT code; 0 for a reserved one. DESIGN CHOICE (log 51). -/
def laneBits : Nat → Nat
  | 0 => 32
  | 1 => 16
  | 2 => 16
  | 3 => 8
  | 4 => 4
  | 5 => 32
  | 6 => 32
  | 7 => 64
  | _ => 0

/-- Is a FMT code a floating-point one? -/
def laneFp (fmt : Nat) : Bool := fmt ≤ 2

/-- Element i of SRCB in FMT: FP32 bits, or an integer. -/
def laneFloat (fmt : Nat) (b : Bytes) (i : Nat) : Nat :=
  let f := if fmt = 1 then bf16 else if fmt = 2 then fp16 else fp32
  let n := f.w / 8
  fp32.encode (f.decode (leNat ((b.drop (n * i)).take n)))

/-- Element i of SRCB in an integer FMT. -/
def laneInt (fmt : Nat) (b : Bytes) (i : Nat) : Int :=
  if fmt = 4 then toSigned 4 ((b.getD (i / 2) 0).toNat / (if i % 2 = 1 then 16 else 1))
  else
    let n := laneBits fmt / 8
    let v := leNat ((b.drop (n * i)).take n)
    if fmt = 6 then (v : Int) else toSigned (8 * n) v

/-- A signed INT32 result, saturated. -/
def sat32 (x : Int) : Nat := ofSigned 32 (clampS 32 x)

/-- The values of accumulator lanes: 32-bit patterns. -/
def laneWords (b : Bytes) (n : Nat) : List Nat := elems 4 n b

/-- The operands of a LANE step inside their spaces, or the reference that is not. DESIGN CHOICE (log 51). -/
def Thread.laneOut (t : Thread) (s : Step) (n k : Nat) : Option Nat :=
  if !t.inside s.srca (4 * n) then some s.srca
  else if !t.inside s.srcb k then some s.srcb
  else if !t.inside s.dst (4 * n) then some s.dst
  else none

/-- An operand of a step that issues no access leaves its space: the latch is filled and the step ends (R196). -/
def Dev.outsideEnd (d : Dev) (c : Cx) (bay thr : Nat) (t : Thread) (ref engine : Nat) : Dev :=
  d.stepEnd c bay thr (t.latchFault (hwLatch engine bay 1 t.step (t.addr ref)))

/-- A LANE step on every active lane i: its new DST value from the lane index, the SRCA lane, the SRCB bytes and the old
DST lane. A lane whose SRCB element lies beyond the register, or a reserved FMT, gives a free value. -/
def Dev.laneStep (d : Dev) (c : Cx) (bay thr op : Nat) (ecc : Option Ecc) (per : Step → Nat)
    (f : Step → Nat → Nat → Bytes → Nat → Nat) : Dev :=
  d.stepRow c bay thr 4 op ecc fun d t s =>
    let n := t.active s
    let bitsB := n * per s
    match t.laneOut s n (ceilDiv bitsB 8) with
    | some r => d.outsideEnd c bay thr t r 1
    | none =>
      let tk := thrKey bay thr
      let a := laneWords (d.srcBytes tk t s s.srca (4 * n)) n
      let b := d.srcBytes tk t s s.srcb (ceilDiv bitsB 8)
      let o := laneWords (d.srcBytes tk t s s.dst (4 * n)) n
      let (free, d) := d.pick
      let known := if per s = 0 then 0 else if kindOf s.srcb = 1 then 16384 / per s else n
      let out := (List.range n).map fun i =>
        if i < known then f s i (a.getD i 0) b (o.getD i 0) else free / 2 ^ (32 * i) % 2 ^ 32
      let (d, t) := d.dstBytes tk t s.dst 0 (elemBytes 4 out)
      d.stepEnd c bay thr t

/-- A LANE operation of SRCA and SRCB in floating point and in exact integers. -/
def lane2 (fp : Nat → Nat → Nat) (int : Int → Int → Int) (s : Step) (i a : Nat) (b : Bytes) (_o : Nat) : Nat :=
  if laneFp s.fmt then fp a (laneFloat s.fmt b i) else sat32 (int (toSigned 32 a) (laneInt s.fmt b i))

/-- LANE FMA: DST ← SRCA × SRCB + DST, fused. -/
def execLaneFma (bay thr : Nat) (ecc : Option Ecc) (s : State) : Host.Outcome State Fault Refusal :=
  s.run fun c d => d.laneStep c bay thr 0 ecc (fun s => laneBits s.fmt) fun s i a b o =>
    if laneFp s.fmt then ffma a (laneFloat s.fmt b i) o
    else sat32 (toSigned 32 a * laneInt s.fmt b i + toSigned 32 o)

/-- LANE ADD. -/
def execLaneAdd (bay thr : Nat) (ecc : Option Ecc) (s : State) : Host.Outcome State Fault Refusal :=
  s.run fun c d => d.laneStep c bay thr 1 ecc (fun s => laneBits s.fmt) (lane2 fadd fun a b => a + b)

/-- LANE MUL. -/
def execLaneMul (bay thr : Nat) (ecc : Option Ecc) (s : State) : Host.Outcome State Fault Refusal :=
  s.run fun c d => d.laneStep c bay thr 2 ecc (fun s => laneBits s.fmt) (lane2 fmul fun a b => a * b)

/-- LANE MAX. -/
def execLaneMax (bay thr : Nat) (ecc : Option Ecc) (s : State) : Host.Outcome State Fault Refusal :=
  s.run fun c d => d.laneStep c bay thr 3 ecc (fun s => laneBits s.fmt) (lane2 (fmaxBits fp32) fun a b => max a b)

/-- LANE MIN. -/
def execLaneMin (bay thr : Nat) (ecc : Option Ecc) (s : State) : Host.Outcome State Fault Refusal :=
  s.run fun c d => d.laneStep c bay thr 4 ecc (fun s => laneBits s.fmt) (lane2 (fminBits fp32) fun a b => min a b)

/-- LANE SCALE: SRCB is a scalar in FMT, its element 0. -/
def execLaneScale (bay thr : Nat) (ecc : Option Ecc) (s : State) : Host.Outcome State Fault Refusal :=
  s.run fun c d => d.stepRow c bay thr 4 5 ecc fun d t s =>
    let n := t.active s
    match t.laneOut s n 8 with
    | some r => d.outsideEnd c bay thr t r 1
    | none =>
      let tk := thrKey bay thr
      let a := laneWords (d.srcBytes tk t s s.srca (4 * n)) n
      let b := leBytes 8 (match kindOf s.srcb with
        | 1 => leNat (d.srcBytes tk t s s.srcb 8)
        | 6 => leNat (d.srcBytes tk t s s.srcb 8)
        | 7 => leNat (d.srcBytes tk t s s.srcb 8)
        | _ => t.val s s.srcb)
      let (free, d) := d.pick
      let out := (List.range n).map fun i =>
        if laneBits s.fmt = 0 then free / 2 ^ (32 * i) % 2 ^ 32
        else lane2 fmul (fun a b => a * b) s 0 (a.getD i 0) b 0
      let (d, t) := d.dstBytes tk t s.dst 0 (elemBytes 4 out)
      d.stepEnd c bay thr t

/-- LANE DOT: a dot product across the lanes. The spec does not say which lanes take it or how it is summed, so the
active lanes of DST hold free values. DESIGN CHOICE (log 51). -/
def execLaneDot (bay thr : Nat) (ecc : Option Ecc) (s : State) : Host.Outcome State Fault Refusal :=
  s.run fun c d => d.laneStep c bay thr 6 ecc (fun _ => 0) fun _ _ a _ _ => a

/-- Exact products of the k elements of a MAC lane with the SRCA lane, added into the INT32 accumulator with
saturation. -/
def macLane (fmt k i a : Nat) (b : Bytes) (o : Nat) : Nat :=
  sat32 (((List.range k).map fun j => toSigned 32 a * laneInt fmt b (k * i + j)).sum + toSigned 32 o)

/-- LANE MAC8: elements 2i and 2i + 1 of SRCB, INT8. -/
def execMac8 (bay thr : Nat) (ecc : Option Ecc) (s : State) : Host.Outcome State Fault Refusal :=
  s.run fun c d => d.laneStep c bay thr 7 ecc (fun _ => 16) fun _ i a b o => macLane 3 2 i a b o

/-- LANE MAC4: elements 4i to 4i + 3 of SRCB, INT4. -/
def execMac4 (bay thr : Nat) (ecc : Option Ecc) (s : State) : Host.Outcome State Fault Refusal :=
  s.run fun c d => d.laneStep c bay thr 8 ecc (fun _ => 16) fun _ i a b o => macLane 4 4 i a b o

/-! ### CODEC -/

/-- A CODEC step from the SRCA elements to the DST bytes: widths of an input and an output element in bits, and the
bytes; a FMT the codec has no conversion for writes free bytes. -/
def Dev.codecStep (d : Dev) (c : Cx) (bay thr op : Nat) (ecc : Option Ecc) (inW outW : Nat → Nat)
    (f : Step → Nat → Nat → Bytes → Bytes) : Dev :=
  d.stepRow c bay thr 5 op ecc fun d t s =>
    let n := t.active s
    let a := ceilDiv (n * inW s.fmt) 8
    let o := ceilDiv (n * outW s.fmt) 8
    if !t.inside s.srca a then d.outsideEnd c bay thr t s.srca 1
    else if !t.inside s.dst o then d.outsideEnd c bay thr t s.dst 1
    else
      let tk := thrKey bay thr
      let x := d.srcBytes tk t s s.srca a
      let (free, d) := d.pick
      let out := if 5 ≤ s.fmt then leBytes o free else takeBytes o (f s n (t.val s s.srcb) x)
      let (d, t) := d.dstBytes tk t s.dst 0 out
      d.stepEnd c bay thr t

/-- The element format (R220) of a step's FMT code: FP32, BF16, FP16, INT8, INT4. DESIGN CHOICE (log 51). -/
def codecFmt (fmt : Nat) : Fmt := if fmt = 1 then bf16 else if fmt = 2 then fp16 else fp32

/-- CODEC QUANT: FP32 elements of SRCA to codes with the record SRCB (R241), or narrowed to a floating-point FMT
(R244). -/
def execQuant (bay thr : Nat) (ecc : Option Ecc) (s : State) : Host.Outcome State Fault Refusal :=
  s.run fun c d => d.codecStep c bay thr 0 ecc (fun _ => 32) laneBits fun s n v x =>
    let es := elems 4 n x
    if laneFp s.fmt then elemBytes (laneBits s.fmt / 8) (es.map (narrow (codecFmt s.fmt)))
    else packElems s.fmt (es.map fun e => if badRecord v then 0 else ofSigned (laneBits s.fmt) (quantOne s.fmt v e false).1)

/-- CODEC DEQUANT: codes of SRCA to FP32 with the record SRCB (R243), or a floating-point FMT widened (R244). -/
def execDequant (bay thr : Nat) (ecc : Option Ecc) (s : State) : Host.Outcome State Fault Refusal :=
  s.run fun c d => d.codecStep c bay thr 1 ecc laneBits (fun _ => 32) fun s n v x =>
    elemBytes 4 ((List.range n).map fun i =>
      if laneFp s.fmt then laneFloat s.fmt x i else dequant fp32 (laneInt s.fmt x i) v)

end Sys2Proof.Machine
end

