-- ==== Sys2Proof/Machine/StepMem.lean ====
section
/-! DEFINITION. Steps that issue accesses, declare streams, wait and end a run (LOAD, STORE, ATOM, COPY, STRM, WAIT, DONE:
R197, R200 to R208, R286), the responses of accesses, the step watchdog (R209 to R211), and translation walks (R123, R130 to
R132). -/
namespace Sys2Proof.Machine

/-! ### Streams -/

/-- The stream index of an operand. -/
def strmOf (ref : Nat) : Nat := idxOf ref % 4

/-- Bytes of an element of a sequential stream. -/
def Strm.es (st : Strm) : Nat := 2 ^ st.lg

/-- Elements left in the declared range. -/
def Strm.left (st : Strm) : Nat := st.len / st.es - st.pos

/-- The TVA of the next n elements of a sequential stream; a descending one takes them from the end. -/
def Strm.at_ (st : Strm) (n : Nat) : Nat :=
  if st.desc then st.base + st.len - (st.pos + n) * st.es else st.base + st.pos * st.es

/-- The stream with n elements passed. -/
def Strm.step (st : Strm) (n : Nat) : Strm := { st with pos := st.pos + n }

/-- Put a stream context back. -/
def Thread.setStrm (t : Thread) (i : Nat) (st : Strm) : Thread := { t with strms := tset t.strms i st }

/-- Issue an access after which the thread's streams are those of t'; a stream without free miss slots stalls the thread
unchanged (R129). DEDUCED (log 49). -/
def Dev.issueWith (d : Dev) (c : Cx) (bay thr : Nat) (t t' : Thread) (x : Issue) (flags : List Nat) (scentAt : Option Nat) :
    Dev :=
  if !t.slotsFor x.strm x.tva x.len then d.putThread bay thr { t with state := 2 }
  else (d.putThread bay thr t').issue c bay thr x flags scentAt

/-- Bytes of n elements of a step's FMT. -/
def fmtLen (fmt n : Nat) : Nat := ceilDiv (n * (if fmt = 7 then 64 else fmtBits fmt)) 8

/-- Where delivered data goes in its space: the address of a SCRATCH or PINNED operand, else the register's start. -/
def Thread.dstAt (t : Thread) (ref : Nat) : Nat := if kindOf ref = 6 || kindOf ref = 7 then t.addr ref else 0

/-! ### LOAD -/

/-- LOAD LDSEQ: the next elements of a sequential stream; SEND with the last one, and when none is left. -/
def execLdseq (bay thr : Nat) (ecc : Option Ecc) (s : State) : Host.Outcome State Fault Refusal :=
  s.run fun c d => d.stepRow c bay thr 1 0 ecc fun d t s =>
    match tget t.strms (strmOf s.srca) with
    | none => d.noIssue c bay thr []
    | some st =>
      let n := min (t.active s) st.left
      if st.indexed then d.noIssue c bay thr []
      else if n = 0 then d.noIssue c bay thr [4]
      else if !t.inside s.dst (n * st.es) then d.outside c bay thr t s.dst
      else
        let x : Issue := { kind := 0, strm := strmOf s.srca, tva := st.at_ n, len := n * st.es, fetch := true, dst := s.dst,
                           at_ := t.dstAt s.dst, nodl := bit s.imm 0 }
        d.issueWith c bay thr t (t.setStrm (strmOf s.srca) (st.step n)) x (if n = st.left then [4] else []) (some x.tva)

/-- LOAD LDROW: row SRCB of an indexed stream, or INVIDX. DEDUCED (log 49). -/
def execLdrow (bay thr : Nat) (ecc : Option Ecc) (s : State) : Host.Outcome State Fault Refusal :=
  s.run fun c d => d.stepRow c bay thr 1 1 ecc fun d t s =>
    match tget t.strms (strmOf s.srca) with
    | none => d.noIssue c bay thr []
    | some st =>
      let row := t.val s s.srcb
      let n := fmtLen s.fmt (t.active s)
      if !st.indexed then d.noIssue c bay thr []
      else if st.len ≤ row then d.noIssue c bay thr [6]
      else if !t.inside s.dst n then d.outside c bay thr t s.dst
      else
        let x : Issue := { kind := 0, strm := strmOf s.srca, tva := st.base + row * st.stride, len := n, fetch := true,
                           dst := s.dst, at_ := t.dstAt s.dst, nodl := bit s.imm 0 }
        d.issueWith c bay thr t t x (if row + 1 = st.len then [4] else []) none

/-- LOAD LDIDX: the next index of an index stream into S[DST], or BAGEND when the bag is used up. -/
def execLdidx (bay thr : Nat) (ecc : Option Ecc) (s : State) : Host.Outcome State Fault Refusal :=
  s.run fun c d => d.stepRow c bay thr 1 2 ecc fun d t s =>
    match tget t.strms (strmOf s.srca) with
    | none => d.noIssue c bay thr []
    | some st =>
      if st.indexed then d.noIssue c bay thr []
      else if st.bag = 0 then d.noIssue c bay thr [5]
      else if st.left = 0 then d.noIssue c bay thr [4]
      else
        let x : Issue := { kind := 0, strm := strmOf s.srca, tva := st.at_ 1, len := min 8 st.es, fetch := true,
                           dst := 512 + idxOf s.dst % 32, nodl := bit s.imm 0 }
        d.issueWith c bay thr t (t.setStrm (strmOf s.srca) { (st.step 1) with bag := st.bag - 1 }) x
          (if st.left = 1 then [4] else []) (some x.tva)

/-- LOAD LDSHADOW: as LDROW, from the shadow of the tensor whose header TVA is descriptor word 2 (R201, R231); ABSENT when
none is current. No event while a line of the header's translation is busy. -/
def execLdshadow (bay thr : Nat) (env : List Reply) (ecc : Option Ecc) (s : State) : Host.Outcome State Fault Refusal :=
  s.run fun c d => d.stepRow c bay thr 1 3 ecc fun d t s =>
    let row := t.val s s.srcb
    let w : Who := { c := c, bay := bay, thr := thr, collar := t.collar, cls := d.rd F.RNG_CTL_SERVICE t.ring }
    let (sh, r) := (shadowOf w (t.words.getD 2 0) t.start).run { d := d, env := env }
    if r.busy then d
    else
      let d := r.d
      match tget t.strms (strmOf s.srca), sh with
      | none, _ => d.noIssue c bay thr []
      | some _, none => d.noIssue c bay thr [7]
      | some st, some e =>
        if st.len ≤ row || e.rows ≤ row then d.noIssue c bay thr [6]
        else
          let rb := e.rowlen * fmtBits e.sfmt / 8
          let b := ((e.data.drop (row * rb)).take rb).take (fmtLen e.sfmt (t.active s))
          if !t.inside s.dst b.length then d.outside c bay thr t s.dst
          else
            let (d, t) := d.dstBytes (thrKey bay thr) t s.dst 0 b
            (d.putThread bay thr t).noIssue c bay thr (if row + 1 = st.len then [4] else [])

/-! ### STORE -/

/-- A STORE of n bytes of SRCA under a mask at a TVA. DEDUCED (log 49). -/
def Dev.storeStep (d : Dev) (c : Cx) (bay thr : Nat) (t t' : Thread) (s : Step) (strm tva n mask : Nat) (flags : List Nat)
    (scentAt : Option Nat) : Dev :=
  if !t.inside s.srca n then d.outside c bay thr t s.srca
  else d.issueWith c bay thr t t'
    { kind := 1, strm := strm, tva := tva, len := n, mask := mask % 2 ^ n, data := d.srcBytes (thrKey bay thr) t s s.srca n }
    flags scentAt

/-- A STORE to the next elements of a sequential stream under a mask of its bytes. -/
def Dev.storeSeq (d : Dev) (c : Cx) (bay thr op : Nat) (ecc : Option Ecc) (mask : Dev → Thread → Step → Nat → Nat) : Dev :=
  d.stepRow c bay thr 2 op ecc fun d t s =>
    match tget t.strms (strmOf s.dst) with
    | none => d.noIssue c bay thr []
    | some st =>
      let n := min (t.active s) st.left
      if st.indexed then d.noIssue c bay thr []
      else if n = 0 then d.noIssue c bay thr [4]
      else
        d.storeStep c bay thr t (t.setStrm (strmOf s.dst) (st.step n)) s (strmOf s.dst) (st.at_ n) (n * st.es)
          (mask d t s (n * st.es)) (if n = st.left then [4] else []) (some (st.at_ n))

/-- STORE STSEQ. -/
def execStseq (bay thr : Nat) (ecc : Option Ecc) (s : State) : Host.Outcome State Fault Refusal :=
  s.run fun c d => d.storeSeq c bay thr 0 ecc fun _ _ _ n => 2 ^ n - 1

/-- STORE STROW: row SRCB of an indexed stream, or INVIDX. DEDUCED (log 49). -/
def execStrow (bay thr : Nat) (ecc : Option Ecc) (s : State) : Host.Outcome State Fault Refusal :=
  s.run fun c d => d.stepRow c bay thr 2 1 ecc fun d t s =>
    match tget t.strms (strmOf s.dst) with
    | none => d.noIssue c bay thr []
    | some st =>
      let row := t.val s s.srcb
      let n := fmtLen s.fmt (t.active s)
      if !st.indexed then d.noIssue c bay thr []
      else if st.len ≤ row then d.noIssue c bay thr [6]
      else d.storeStep c bay thr t t s (strmOf s.dst) (st.base + row * st.stride) n (2 ^ n - 1)
        (if row + 1 = st.len then [4] else []) none

/-- STORE STMASK: bit i of SRCB enables byte i; a vector register holds a bit for each byte, a scalar for the first 64. -/
def execStmask (bay thr : Nat) (ecc : Option Ecc) (s : State) : Host.Outcome State Fault Refusal :=
  s.run fun c d => d.storeSeq c bay thr 2 ecc fun d t s n =>
    if kindOf s.srcb = 1 then leNat (d.srcBytes (thrKey bay thr) t s s.srcb (ceilDiv n 8)) else t.val s s.srcb

/-! ### ATOM -/

/-- ATOM ATOMIC: on the next element of stream SRCA, with the operand SRCB; the old value goes to DST, whose value before
is what a CAS compares. A malformed atomic is refused with FORMAT (R94, R588). DEDUCED (log 49). -/
def execAtomAtomic (bay thr : Nat) (ecc : Option Ecc) (s : State) : Host.Outcome State Fault Refusal :=
  s.run fun c d => d.stepRow c bay thr 3 0 ecc fun d t s =>
    match tget t.strms (strmOf s.srca) with
    | none => d.noIssue c bay thr []
    | some st =>
      let aop := bits s.imm 0 4
      let ety := bits s.imm 4 3
      let fetch := bit s.imm 7
      let whole := bit s.imm 8
      let n := if whole then 64 else (etyBytes ety).getD 4
      let k := if st.indexed then 1 else max 1 (n / st.es)
      let tva := if st.indexed then st.base + st.pos * st.stride else st.at_ k
      let none_ := if st.indexed then decide (st.len ≤ st.pos) else decide (st.left < k)
      if none_ then d.noIssue c bay thr (if st.indexed then [6] else [4])
      else if !t.inside s.srcb n then d.outside c bay thr t s.srcb
      else if !t.inside s.dst n then d.outside c bay thr t s.dst
      else if !aopValid aop ety whole || tva % n ≠ 0 then
        (d.putThread bay thr (t.latchFault { status := 0x10, type := 0, engine := 10, step := t.step })).noIssue c bay thr [15]
      else
        let tk := thrKey bay thr
        let scalar (ref : Nat) : Bytes := if kindOf ref = 2 || kindOf ref = 4 || kindOf ref = 5 || kindOf ref = 8 then
            takeBytes n (leBytes 8 (t.val s ref)) else d.srcBytes tk t s ref n
        let a : AtomOp := { aop := aop, ety := ety, whole := whole, fetch := fetch, at_ := 0, operand := scalar s.srcb,
                            cmp := scalar s.dst }
        d.issueWith c bay thr t (t.setStrm (strmOf s.srca) (st.step k))
          { kind := 2, strm := strmOf s.srca, tva := tva, len := n, fetch := fetch, dst := if fetch then s.dst else 0,
            at_ := t.dstAt s.dst, atom := some a } (if !st.indexed && st.left = k then [4] else []) none

/-! ### COPY -/

/-- COPY: IMM × 64 bytes from SRCA to DST, the two in different spaces. A copy within one space, or of an operand that
reaches no memory, issues nothing. -/
def execCopy (bay thr : Nat) (ecc : Option Ecc) (s : State) : Host.Outcome State Fault Refusal :=
  s.run fun c d => d.stepRow c bay thr 0xA 0 ecc fun d t s =>
    let n := s.imm * 64
    let tk := thrKey bay thr
    let space (ref : Nat) : Bool := kindOf ref = 3 || kindOf ref = 6 || kindOf ref = 7
    if !space s.srca || !space s.dst || kindOf s.srca = kindOf s.dst || n = 0 then d.noIssue c bay thr []
    else if !t.inside s.srca n then d.outside c bay thr t s.srca
    else if !t.inside s.dst n then d.outside c bay thr t s.dst
    else if kindOf s.srca = 3 then
      match tget t.strms (strmOf s.srca) with
      | none => d.noIssue c bay thr []
      | some st =>
        let k := max 1 (n / st.es)
        d.issueWith c bay thr t (t.setStrm (strmOf s.srca) (st.step k))
          { kind := 3, strm := strmOf s.srca, tva := st.at_ k, len := n, fetch := true, dst := s.dst, at_ := t.dstAt s.dst } []
          (some (st.at_ k))
    else if kindOf s.dst = 3 then
      match tget t.strms (strmOf s.dst) with
      | none => d.noIssue c bay thr []
      | some st =>
        let k := max 1 (n / st.es)
        d.issueWith c bay thr t (t.setStrm (strmOf s.dst) (st.step k))
          { kind := 4, strm := strmOf s.dst, tva := st.at_ k, len := n, mask := 2 ^ n - 1, data := d.srcBytes tk t s s.srca n } []
          (some (st.at_ k))
    else
      let (d, t) := d.dstBytes tk t s.dst 0 (d.srcBytes tk t s s.srca n)
      (d.putThread bay thr t).noIssue c bay thr []

/-! ### STRM -/

/-- A STRM step that puts a context in place of stream DST. -/
def Dev.strmStep (d : Dev) (c : Cx) (bay thr op : Nat) (ecc : Option Ecc) (f : Thread → Step → Option Strm → Option Strm) :
    Dev :=
  d.stepRow c bay thr 0xB op ecc fun d t s =>
    let i := strmOf s.dst
    let t := { t with strms := match f t s (tget t.strms i) with
      | some st => tset t.strms i st
      | none => tdel t.strms i }
    d.stepEnd c bay thr t

/-- STRM SEQ: stream DST from TVA SRCA, SRCB bytes; IMM gives direction, use and element size. -/
def execStrmSeq (bay thr : Nat) (ecc : Option Ecc) (s : State) : Host.Outcome State Fault Refusal :=
  s.run fun c d => d.strmStep c bay thr 0 ecc fun t s _ =>
    some { indexed := false, base := t.val s s.srca, len := t.val s s.srcb, desc := bit s.imm 0, write := bit s.imm 1,
           lg := bits s.imm 8 4 }

/-- STRM IDX: table at TVA SRCA, SRCB rows, row stride IMM[19:0]. -/
def execStrmIdx (bay thr : Nat) (ecc : Option Ecc) (s : State) : Host.Outcome State Fault Refusal :=
  s.run fun c d => d.strmStep c bay thr 1 ecc fun t s _ =>
    some { indexed := true, base := t.val s s.srca, len := t.val s s.srcb, stride := bits s.imm 0 20 }

/-- STRM BAG: the next bag of stream DST holds SRCA indices. -/
def execStrmBag (bay thr : Nat) (ecc : Option Ecc) (s : State) : Host.Outcome State Fault Refusal :=
  s.run fun c d => d.strmStep c bay thr 2 ecc fun t s st => st.map fun (st : Strm) => { st with bag := t.val s s.srca }

/-- STRM CLOSE: stream DST is declared no longer. -/
def execStrmClose (bay thr : Nat) (ecc : Option Ecc) (s : State) : Host.Outcome State Fault Refusal :=
  s.run fun c d => d.strmStep c bay thr 3 ecc fun _ _ _ => none

/-! ### WAIT and DONE -/

/-- WAIT: its end comes when every earlier access of class IMM[1:0] has finished; POISON and ACCERR are then the OR over
those accesses and the other access flags 0 (R200, R204). DEDUCED (log 50). -/
def execWait (bay thr : Nat) (ecc : Option Ecc) (s : State) : Host.Outcome State Fault Refusal :=
  s.run fun c d => d.stepRow c bay thr 0xC 0 ecc fun d t s =>
    d.stepEnd c bay thr { t.clearAccess with grp := t.nextAcc, wait := bits s.imm 0 2, unk := 0 }

/-- DONE COMPLETE: STATUS ← SRCA[7:0], RESULT_A ← SRCB[31:0], RESULT_B ← S[IMM[4:0]], once every access has finished
(R206, R208). -/
def execDoneComplete (bay thr : Nat) (ecc : Option Ecc) (s : State) : Host.Outcome State Fault Refusal :=
  s.run fun c d => d.stepRow c bay thr 0xD 0 ecc fun d t s =>
    d.drain c bay thr 0 { status := t.val s s.srca % 256, ra := t.val s s.srcb % 2 ^ 32,
                          rb := (tget t.sreg (s.imm % 32)).getD 0 }

/-- DONE FAULT: the latch's record and its status; with an empty latch SRCA[7:0] and no record (R208). -/
def execDoneFault (bay thr : Nat) (ecc : Option Ecc) (s : State) : Host.Outcome State Fault Refusal :=
  s.run fun c d => d.stepRow c bay thr 0xD 1 ecc fun d t s =>
    d.drain c bay thr 1 { status := t.val s s.srca % 256 }

/-- DONE PARK: a ROW_MIGRATE goes to the ring manager in PENDING_COMMIT; in any other run HW_ERROR (R197, R208, R286). -/
def execDonePark (bay thr : Nat) (ecc : Option Ecc) (s : State) : Host.Outcome State Fault Refusal :=
  s.run fun c d => d.stepRow c bay thr 0xD 2 ecc fun d t s =>
    d.drain c bay thr 2 { status := 0, ra := t.val s s.srcb % 2 ^ 32, rb := (tget t.sreg (s.imm % 32)).getD 0 }

/-! ### Responses and the watchdog -/

/-- The data or response of an access arrives at its thread (R200, R204); an error of the bay's storage met on delivery
ends the run. -/
def execAccessResponse (bay thr acc : Nat) (ecc : Option Ecc) (s : State) : Host.Outcome State Fault Refusal :=
  s.run fun c d =>
    match d.takeAnswer bay thr acc, d.thread bay thr with
    | some (d, a), some t =>
      let (d, _) := match ecc with
        | some e => d.stepEcc c bay thr t e
        | none => (d, false)
      d.respond c bay thr acc a.status a.data none
    | some (d, _), none => d
    | none, _ => d

/-- The step watchdog of a thread expires (R211); it holds its count while the thread waits for an access (R209). DEDUCED (log 50). -/
def execStepWatchdog (bay thr : Nat) (s : State) : Host.Outcome State Fault Refusal :=
  s.run fun c d =>
    match d.thread bay thr with
    | none => d
    | some t =>
      if t.state ≠ 1 then d
      else
        let s := d.stepAt t.step
        let lc (i : Nat) : Nat := (tget t.lc i).getD 0
        let d := d.inc F.SHP_WDOG_EXPIRED bay
        d.endFault c bay thr
          { status := 0x17, type := 0x04, engine := 0, step := t.step,
            w20 := t.step + 2 ^ 16 * s.nextT + 2 ^ 30 * s.nextF + 2 ^ 44 * s.csel + 2 ^ 48 * t.state,
            w28 := lc 0 + 2 ^ 32 * lc 1, w30 := lc 2 + 2 ^ 32 * lc 3, w38 := t.flags } true

/-! ### Walks (R130 to R132) -/

/-- The walker group that serves a page: its quarter's, or the partner of a fenced group (R483, R535). -/
def Dev.walkGroup (d : Dev) (w : Walk) : Nat :=
  let q := quarter w.collar (w.page * 4096)
  if d.bitAt F.RAS_FMASK_WALKERS 0 q then q ^^^ 1 else q

/-- The stream a walk counts against. -/
def Walk.strm (w : Walk) : Nat := match w.waiters.head? with
  | some (b, s) => b * 32 + s
  | none => 0

/-- Is a walk this one? -/
def Walk.isOf (w : Walk) (collar page : Nat) : Bool := w.collar = collar && w.page = page

/-- A walk gives each waiting stream its translation: its slot is free, and accesses that wait for the page go on. -/
def Dev.serveWaiters (d : Dev) (c : Cx) (w : Walk) (r : Except XF (Tlb × Nat)) : Dev :=
  w.waiters.foldl (fun d (bay, strm) =>
    let thr := strm / 4
    match d.thread bay thr with
    | none => d
    | some t =>
      let d := d.putThread bay thr { t with slots := t.slots.filter fun x => x.1 ≠ strm % 4 || x.2.1 ≠ w.page }
      let d := (t.accs.filter fun a => a.waiting && !a.held && a.strm % 4 = strm % 4 && a.tva / 4096 = w.page).foldl (fun d a =>
        match r with
        | .ok (e, leaf) => d.useTlb c bay thr a.id e leaf
        | .error f => match d.thread bay thr with
          | some t => d.putThread bay thr (t.xfault thr a f)
          | none => d) d
      d.afterAcc c bay thr) d

/-- The walk of the smallest stream number after the one that last took a turn (R130). DESIGN CHOICE (log 42). -/
def nextWalk (ws : List Walk) (last : Nat) : Option Walk :=
  let least (l : List Walk) : Option Walk := l.foldl (fun b w => match b with
    | none => some w
    | some x => if w.strm < x.strm then some w else some x) none
  (least (ws.filter fun w => last < w.strm)).orElse fun _ => least ws

/-- A free walker of a group starts a waiting walk (R130). DESIGN CHOICE (log 42). -/
def execWalkStart (group : Nat) (s : State) : Host.Outcome State Fault Refusal :=
  s.run fun c d =>
    let mine := d.walks.filter fun w => d.walkGroup w = group
    let waiting := mine.filter fun w => !w.started
    let demand := waiting.filter (·.demand)
    if d.bitAt F.RAS_FMASK_WALKERS 0 group || 16 ≤ (mine.filter (·.started)).length then d
    else match nextWalk (if demand.isEmpty then waiting else demand) ((tget d.walkTurn group).getD 0) with
      | none => d
      | some w =>
        let d := { d with walkTurn := tset d.walkTurn group w.strm }
        match d.lookupShr w.collar (w.page * 4096) with
        | (d, some e) =>
          let d := { d with walks := d.walks.filter fun x => !x.isOf w.collar w.page }
          (w.waiters.foldl (fun d (b, _) => d.installBay b e) d).serveWaiters c w (.ok (e, 0))
        | (d, none) =>
          let d := d.inc (if w.demand then F.XLT_MISS_WALK else F.XLT_SCENT_WALKS) 0
          { d with walks := mapIf (fun x => x.isOf w.collar w.page) (fun x => { x with started := true }) d.walks }

/-- Scent with TILE_FILL reads the rest of the tile's last-level table: every valid leaf is installed in the shared cache
(R131). -/
def fillTile (c : Cx) (collar page : Nat) : List Nat → RM Unit
  | [] => return
  | i :: r => do
    match ← walk c collar ((page / 512 * 512 + i) * 4096) with
    | .ok (e, _) => onDev fun d => d.installShr { e with scent := true }
    | .error _ => pure ()
    fillTile c collar page r

/-- What a walk that ends installs: the shared cache, and the bay caches of the streams that wait for it or, for Scent, of
the stream of the next tile. -/
def endWalk (c : Cx) (w : Walk) : RM (Except XF (Tlb × Nat)) := do
  match ← walk c w.collar (w.page * 4096) with
  | .error f => return .error f
  | .ok (e, leaf) =>
    let e : Tlb := { e with scent := !w.demand }
    onDev fun d =>
      let d := d.installShr e
      if w.demand || w.next then w.waiters.foldl (fun d (b, _) => d.installBay b e) d else d
    if !w.demand && e.s < 21 then
      if (← get).d.rd F.XLT_CFG_TILE_FILL = 1 then fillTile c w.collar w.page (List.range 512)
    return .ok (e, leaf)

/-- A walk in flight ends (R123, R130): a stale one starts again (R142); a Scent walk that faults leaves nothing (R132). No
event while a line of its tables is busy. -/
def execWalkComplete (collar page : Nat) (env : List Reply) (s : State) : Host.Outcome State Fault Refusal :=
  s.run fun c d =>
    match d.walks.find? fun w => w.isOf collar page && w.started with
    | none => d
    | some w =>
      if w.stale then
        { d with walks := mapIf (fun x => x.isOf collar page) (fun x => { x with started := false, stale := false }) d.walks }
      else
        let (res, r) := (endWalk c w).run { d := d, env := env }
        if r.busy then d
        else
          let d := { r.d with walks := r.d.walks.filter fun x => !x.isOf collar page }
          d.serveWaiters c w res

end Sys2Proof.Machine
end

