-- ==== Sys2Proof/Machine/Tracker.lean ====
section
/-! DEFINITION. The Tracker (spec/09): indexes, distances, the candidate queue, SEARCH, INSERT, DELETE and MERGE. -/
namespace Sys2Proof.Machine

/-! ### The index header (R293, R294) -/

/-- An index header. -/
structure IHdr where
  tva : Nat
  metric : Nat
  fmt : Nat
  qsm : Nat
  dim : Nat
  deg : Nat
  nodes : Nat
  nstride : Nat
  sidelog : Nat
  nodeBase : Nat
  sideBase : Nat
  vsn : Nat
  head : Nat
  entry : Nat
  clean : Bool
  deriving DecidableEq, Repr

/-- Round up to whole 64-byte lines. -/
def up64 (n : Nat) : Nat := ceilDiv n 64 * 64

/-- Decode the 32 words of a header. -/
def IHdr.ofWords (tva : Nat) (ws : List Nat) : IHdr :=
  let w (i : Nat) : Nat := ws.getD i 0
  { tva := tva, metric := bits (w 0) 0 4, fmt := bits (w 0) 4 4, qsm := bits (w 0) 8 1, dim := bits (w 0) 16 13,
    deg := bits (w 0) 32 8, nodes := bits (w 1) 0 32, nstride := bits (w 1) 32 16, sidelog := bits (w 1) 48 5,
    nodeBase := w 2, sideBase := w 3, vsn := w 8, head := w 16, entry := bits (w 17) 0 32,
    clean := bits (w 0) 9 7 = 0 && bits (w 0) 29 3 = 0 && bits (w 0) 40 24 = 0 && bits (w 1) 53 11 = 0 && w 4 = 0 && w 5 = 0 &&
      w 6 = 0 && w 7 = 0 && bits (w 17) 32 32 = 0 && bits (w 0) 0 4 ≤ 2 && bits (w 0) 4 4 ≤ 4 &&
      (bits (w 0) 8 1 = 0 || bits (w 0) 4 4 = 3 || bits (w 0) 4 4 = 4) }

/-- Bytes of a vector. -/
def IHdr.vb (h : IHdr) : Nat := h.dim * fmtBits h.fmt / 8

/-- The checks of R294 made from the header. -/
def IHdr.ok (h : IHdr) : Bool :=
  h.clean && h.tva % 256 = 0 && 1 ≤ h.dim && h.dim ≤ 4096 && !(h.fmt = 4 && h.dim % 2 = 1) && 8 ≤ h.deg && h.deg ≤ 128 &&
    h.deg % 8 = 0 && 1 ≤ h.nodes && h.nodes ≤ 2 ^ 32 - 2 && 6 ≤ h.sidelog && h.sidelog ≤ 20 &&
    h.nstride = 64 + up64 h.vb + up64 (4 * h.deg) && h.nodeBase % 64 = 0 && h.sideBase % 4096 = 0 && h.vsn ≠ 0 &&
    h.head ≤ h.vsn && h.vsn - h.head ≤ 2 ^ h.sidelog && (h.entry = 0xFFFFFFFF || h.entry < h.nodes)

/-- The TVA of node n's record, of its slot array and of side slot v. -/
def IHdr.node (h : IHdr) (n : Nat) : Nat := h.nodeBase + n * h.nstride
def IHdr.nbrs (h : IHdr) (n : Nat) : Nat := h.node n + 64 + up64 h.vb
def IHdr.slot (h : IHdr) (v : Nat) : Nat := h.sideBase + v % 2 ^ h.sidelog * 64

/-- PENDING of TOMB_VSN. -/
def tombPending : Nat := 2 ^ 64 - 1

/-- Does a TVA translate to this module's own node? A fault stops the run. -/
def onNode (w : Who) (tva : Nat) : RM Bool := do
  match ← addrOf w tva needRead with
  | some a => return decide (faNode a = (← get).d.rd F.MAP_NODE_NODE)
  | none => return true

/-- Read the header at the start of a run and make the checks of R294: the header, or the result that ends the run. -/
def readIndex (w : Who) (t : Thread) : RM (Except Res IHdr) := do
  let tva := t.words.getD 2 0
  if tva % 256 ≠ 0 then return .error (formatRes 0x10)
  if !(← onNode w tva) then return .error { status := 0x12 }
  let h := IHdr.ofWords tva (elems 8 32 (← readVa w tva 256))
  if ← stopped then return .error { status := 0 }
  if !h.ok then return .error (formatRes 0x10)
  if !(← onNode w h.nodeBase) || !(← onNode w h.sideBase) then return .error { status := 0x12 }
  return .ok h

/-! ### Records and distances (R295, R298) -/

/-- A node as a consider reads it: words 0x00–0x2F and its vector as FP32 elements. -/
structure NodeRec where
  state : Nat
  ins : Nat
  tomb : Nat
  label : Nat
  norm : Nat
  vec : List Nat
  deriving DecidableEq, Repr

/-- Decode a record. -/
def IHdr.record (h : IHdr) (b : Bytes) : NodeRec :=
  let w (i : Nat) : Nat := leNat ((b.drop (8 * i)).take 8)
  { state := bits (w 0) 0 2, ins := w 1, tomb := w 2, label := w 3, norm := bits (w 5) 0 32,
    vec := (List.range h.dim).map fun j => rowElem h.fmt (b.drop 64) j (w 4) }

/-- Read node n's record words and vector in one access. -/
def readNode (w : Who) (h : IHdr) (n : Nat) : RM NodeRec := do return h.record (← readVa w (h.node n) (64 + h.vb))

/-- The tree sum of sixteen partial sums. -/
def treeSum (p : List Nat) : Nat :=
  let q (i : Nat) : Nat := p.getD i 0
  let half (i : Nat) : Nat := fadd (fadd (fadd (q i) (q (i + 1))) (fadd (q (i + 2)) (q (i + 3))))
    (fadd (fadd (q (i + 4)) (q (i + 5))) (fadd (q (i + 6)) (q (i + 7))))
  fadd (half 0) (half 8)

/-- Sum terms into sixteen partial sums, element j into j mod 16, in ascending j. -/
def partials (f : Nat → Nat → Nat → Nat) (a x : List Nat) : List Nat :=
  ((List.zip a x).foldl (fun (s : Nat × List Nat) (e : Nat × Nat) =>
    (s.1 + 1, s.2.set (s.1 % 16) (f e.1 e.2 (s.2.getD (s.1 % 16) 0)))) (0, List.replicate 16 0)).2

/-- The inner-product tree sum. -/
def dotTree (a x : List Nat) : Nat := treeSum (partials ffma a x)

/-- The norm of a vector. -/
def normOf (x : List Nat) : Nat := fsqrt (dotTree x x)

/-- −v in FP32. -/
def fneg (v : Nat) : Nat := fp32.encode (fp32.decode v).neg

/-- The distance of a query with norm A from a stored vector with norm N (R298). -/
def distance (metric : Nat) (a : List Nat) (na : Nat) (x : List Nat) (nx : Nat) : Nat :=
  match metric with
  | 0 => treeSum (partials (fun a x p => let e := fsub a x; ffma e e p) a x)
  | 1 => fneg (dotTree a x)
  | _ =>
    let dv := fmul na nx
    match fp32.decode dv with
    | .fin _ 0 _ => fp32.inf false
    | _ => fneg (fdiv (dotTree a x) dv)

/-! ### The candidate queue (R299, R300) -/

/-- A distance as keys compare it: one zero, one NaN. -/
def keyD (d : Nat) : Nat :=
  match fp32.decode d with
  | .nan => fp32.nan
  | .fin _ 0 _ => 0
  | _ => d

/-- Is key (a, n) before key (b, m)? -/
def keyLt (a n b m : Nat) : Bool :=
  let x := keyD a
  let y := keyD b
  if x = y then decide (n < m)
  else if x = fp32.nan then false
  else if y = fp32.nan then true
  else (fp32.decode x).lt (fp32.decode y)

/-- Insert a candidate in key order. -/
def candInsert (c : Cand) : List Cand → List Cand
  | [] => [c]
  | x :: r => if keyLt c.d c.node x.d x.node then c :: x :: r else x :: candInsert c r

/-- PUSH: the queue, and whether it was full. -/
def candPush (q : List Cand) (c : Cand) : List Cand × Bool :=
  if q.any (·.node = c.node) then (q, false)
  else if q.length < 1024 then (candInsert c q, false)
  else match q.getLast? with
    | some l => if keyLt c.d c.node l.d l.node then (candInsert c q.dropLast, true) else (q, true)
    | none => (q, true)

/-- POP: the first candidate not expanded, its rank, and the queue with it marked. -/
def candPop (q : List Cand) : Option (List Cand × Cand × Nat) :=
  match q.findIdx? fun c => !c.expanded with
  | some i => match q[i]? with
    | some c => some (q.set i { c with expanded := true }, c, i)
    | none => none
  | none => none

/-! ### Walking the graph (R305) -/

/-- What a query keeps about a node it has pushed: the class it counts in when popped (R307; 1 waypoint, 2 newer, 3
filtered), its label, whether it is a GRAPH node, its vector and its norm. -/
structure Seen where
  node : Nat
  cls : Nat
  label : Nat
  graph : Bool
  deriving DecidableEq, Repr

/-- A query in progress. -/
structure Query where
  vec : List Nat
  norm : Nat
  vsn : Nat
  ef : Nat
  maxexp : Nat
  filter : Option THdr := none
  queue : List Cand := []
  seen : List Seen := []
  qpartial : Bool := false
  expanded : Nat := 0
  way : Nat := 0
  newer : Nat := 0
  filtered : Nat := 0
  dists : Nat := 0
  side : Nat := 0
  slow : Nat := 0
  unseen : Nat := 0
  dropped : Nat := 0

/-- Does the filter accept a node (R308)? -/
def admits (w : Who) (f : Option THdr) (n : Nat) : RM Bool := do
  match f with
  | none => return true
  | some f =>
    if f.layout = 0 then
      let b ← readVa w (f.data + n / 8) 1
      return bit (leNat b) (n % 8)
    else
      let blk := n / 2048
      match ← readGroup w f (blk / 512) with
      | some (base, l1) =>
        if bit l1 (blk % 512) then
          let b ← readVa w (f.data + 256 * (base + popBelow l1 (blk % 512)) + n / 8 % 256) 1
          return bit (leNat b) (n % 8)
        else return false
      | none => return false

/-- Consider a node, from side slot `s` or from the graph. -/
def consider (w : Who) (h : IHdr) (q : Query) (n : Nat) (from_ : Option Nat) : RM Query := do
  if h.nodes ≤ n || (← stopped) then return q
  let slow := ((← slowAt w (h.node n)) || (← slowAt w (h.node n + 63 + h.vb)))
  if slow then return { q with slow := q.slow + 1, qpartial := true }
  let r ← readNode w h n
  if ← stopped then return q
  if r.state = 0 || (r.state = 1 && from_.isNone) || (from_.isSome && from_ ≠ some r.ins) then return q
  let d := distance h.metric q.vec q.norm r.vec r.norm
  let q := { q with dists := q.dists + 1 }
  if q.queue.any (·.node = n) then return q
  let ok ← admits w q.filter n
  let dead := r.tomb ≠ 0 && (r.tomb = tombPending || r.tomb < q.vsn)
  let cls := if dead then 1 else if q.vsn ≤ r.ins then 2 else if !ok then 3 else 0
  let (queue, full) := candPush q.queue { d := d, node := n, expanded := r.state = 1, eligible := cls = 0 && r.state ≤ 2 }
  return { q with queue := queue, dropped := q.dropped + (if full then 1 else 0),
                  seen := { node := n, cls := cls, label := r.label, graph := r.state = 2 } :: q.seen }

/-- The neighbour slots of a node, in ascending order. -/
def neighbours (w : Who) (h : IHdr) (n : Nat) : RM (List Nat) := do
  return elems 4 h.deg (← readVa w (h.nbrs n) (4 * h.deg))

/-- The loop of R305; the queue's POPs are at most the nodes there are. -/
def walkGraph (w : Who) (h : IHdr) : Nat → Query → RM Query
  | 0, q => return q
  | k + 1, q => do
    if ← stopped then return q
    if w.deadline.any (fun dl => dl ≤ w.c.tmr) then return { q with qpartial := true }
    if q.maxexp ≠ 0 && q.expanded = q.maxexp then return q
    match candPop q.queue with
    | none => return q
    | some (queue, c, rank) =>
      if q.ef ≤ rank then return q
      let cls := ((q.seen.find? (·.node = c.node)).map (·.cls)).getD 0
      let one (x : Nat) : Nat := if cls = x then 1 else 0
      let mut q := { q with queue := queue, expanded := q.expanded + 1, way := q.way + one 1, newer := q.newer + one 2,
                            filtered := q.filtered + one 3 }
      for n in ← neighbours w h c.node do
        if n < h.nodes then q ← consider w h q n none
      walkGraph w h k q

/-- Read a side slot for VSN v (R315): the entry's VSN, node and kind; none when the slot has been given up. A slot that
is not written yet, and not given up, makes the row no event but for the wait it notes. DESIGN CHOICE (log 60). -/
def readSlot (w : Who) (h : IHdr) (t : Thread) (v : Nat) : RM (Option (Nat × Nat × Bool)) := do
  let b ← readVa w (h.slot v) 16
  let x := leNat (b.take 8)
  let y := leNat ((b.drop 8).take 8)
  if x < v then
    if !(t.skips.contains v) && !(← stopped) then
      modify fun (r : Run) => { r with busy := true, slot := some (h.slot v, v) }
    return none
  else return some (x, y % 2 ^ 32, bit y 32)

/-! ### SEARCH (R301 to R310) -/

/-- The checks of R308 on a filter's header. -/
def filterOk (f : THdr) (nodes : Nat) : Bool := f.srcOk && f.fmt = 6 && f.qmode = 0 && nodes ≤ f.blocks * 2048

/-- One query's output (R302). DEDUCED (log 59). -/
def Query.output (q : Query) (k : Nat) : List Nat :=
  let hits := (q.queue.filter (·.eligible)).take k
  let sat := satTo 32
  [ hits.length + 2 ^ 32 * (if q.qpartial then 2 else 0), q.vsn, sat q.expanded + 2 ^ 32 * sat q.way,
    sat q.filtered + 2 ^ 32 * sat q.dists, sat q.side + 2 ^ 32 * sat q.slow, sat q.unseen + 2 ^ 32 * sat q.dropped,
    sat q.newer, 0 ] ++
    (List.range (4 * ceilDiv k 4)).flatMap fun e => match hits[e]? with
      | some c => [c.node + 2 ^ 32 * c.d, ((q.seen.find? (·.node = c.node)).map (·.label)).getD 0]
      | none => [0, 0]

/-- Run one query. -/
def runQuery (w : Who) (t : Thread) (h : IHdr) (q : Query) : RM Query := do
  let mut q := q
  for i in List.range (h.vsn - h.head) do
    if !(← stopped) then
      match ← readSlot w h t (h.head + i) with
      | none => q := { q with unseen := q.unseen + 1 }
      | some (v, n, del) =>
        if v = h.head + i && !del then
          q ← consider w h { q with side := q.side + 1 } n (some v)
  if h.entry ≠ 0xFFFFFFFF then q ← consider w h q h.entry none
  walkGraph w h (h.nodes + 1) q

/-- SEARCH. -/
def search (w : Who) (t : Thread) : RM Res := do
  let word (i : Nat) : Nat := t.words.getD i 0
  match ← readIndex w t with
  | .error r => return r
  | .ok h =>
    let nq := bits (word 6) 0 4
    let qfmt := bits (word 6) 4 3
    let k := bits (word 6) 8 9
    let ef := bits (word 6) 18 11
    let maxexp := bits (word 6) 32 16
    let flt ← if word 5 = 0 then pure none else do pure (some (← readHdr w (word 5)))
    if !(← stopped) && flt.any (fun f => !filterOk f h.nodes) then return formatRes 0x28
    let stride := 64 + 64 * ceilDiv k 4
    let qb := h.dim * fmtBits qfmt / 8
    let mut qs : List Query := []
    for i in List.range nq do
      if !(← stopped) then
        let b ← readVa w (word 3 + i * up64 qb) qb
        let vec := (List.range h.dim).map fun j => rowElem qfmt b j 0
        let q ← runQuery w t h { vec := vec, norm := normOf vec, vsn := h.vsn, ef := ef, maxexp := maxexp, filter := flt }
        if !(← stopped) then
          writeVa w (word 4 + i * stride) (wordBytes (q.output k))
          qs := qs ++ [q]
    let sum (f : Query → Nat) : Nat := (qs.map f).sum
    let ended := qs
    if ← stopped then
      for i in List.range (nq - ended.length) do
        let junk ← freeBytes stride
        let _ ← attempt (writeVa w (word 4 + (ended.length + i) * stride) junk)
    let part := (ended.filter (·.qpartial)).length
    onDev fun d => ((((d.bump F.TRK_FQRY_QUERIES w.collar ended.length).inc F.TRK_FEXP_EXPANDED w.collar
      (sum (·.expanded))).inc F.TRK_FEXP_WAYPOINTS w.collar (sum (·.way))).inc F.TRK_FPART_PARTIAL w.collar part).inc
      F.TRK_FPART_UNSEEN w.collar (sum (·.unseen))
    let found := sum fun q => min k (q.queue.filter (·.eligible)).length
    return { status := if part = 0 then 0 else 2, ra := satTo 32 found,
             rb := satTo 32 (sum (·.expanded)) + 2 ^ 32 * satTo 32 (sum (·.way)) }

/-- SEARCH (R305). DEDUCED (log 59). -/
def execSearch (bay thr : Nat) (env : List Reply) (s : State) : Host.Outcome State Fault Refusal :=
  s.run fun c d => d.runOpcode c bay thr 0x18 (fun _ => true) env 0 search

/-! ### INSERT and DELETE (R312, R313) -/

/-- A CAS on a word of the index: the old value. -/
def casWord (w : Who) (tva cmp new : Nat) : RM Nat := do
  return leNat (← atomicVa w tva { aop := 1, ety := 1, whole := false, fetch := true, at_ := 0, operand := leBytes 8 new,
                                   cmp := leBytes 8 cmp })

/-- Take a VSN (step 4 of INSERT): none when the side list is full. -/
def takeVsn (w : Who) (h : IHdr) : RM (Option Nat) := do
  let head ← readWord w (h.tva + 0x80)
  let v ← readWord w (h.tva + 0x40)
  if ← stopped then return none
  if 2 ^ h.sidelog ≤ v - head then return none
  let old ← casWord w (h.tva + 0x40) v (v + 1)
  return if old = v then some v else none

/-- The stored bytes of a vector, its scale record and its norm (step 1 of INSERT). -/
def storedVec (h : IHdr) (xs : List Nat) : Bytes × Nat × Nat :=
  let (b, r) : Bytes × Nat := if isFp h.fmt then
      (packElems h.fmt (xs.map fun v => if h.fmt = 0 then v else narrow (fmtOf h.fmt) v), 0)
    else
      let q := quantGroup h.fmt (1 + h.qsm) 0 xs
      (packElems h.fmt q.codes, q.record)
  let norm := if h.metric = 2 then normOf ((List.range h.dim).map fun j => rowElem h.fmt b j r) else 0
  (b, r, norm)

/-- INSERT. -/
def insertNode (w : Who) (t : Thread) : RM Res := do
  let word (i : Nat) : Nat := t.words.getD i 0
  match ← readIndex w t with
  | .error r => return r
  | .ok h =>
    let n := bits (word 5) 0 32
    let vfmt := bits (word 5) 32 3
    if h.nodes ≤ n then return formatRes 0x28
    let b ← readVa w (word 3) (h.dim * fmtBits vfmt / 8)
    if ← stopped then return { status := 0 }
    let (vec, scale, norm) := storedVec h ((List.range h.dim).map fun j => rowElem vfmt b j 0)
    if (← casWord w (h.node n) 0 1) ≠ 0 then return lateRes w { status := 0, ra := 1 }
    writeVa w (h.node n + 0x10) (wordBytes [0, word 4, scale, norm, 0, 0])
    writeVa w (h.node n + 0x40) (takeBytes (up64 h.vb) vec)
    writeVa w (h.nbrs n) (List.replicate (4 * h.deg) 0xFF)
    match ← takeVsn w h with
    | none =>
      writeWord w (h.node n) 0
      return { status := 0x15, ra := 2 }
    | some v =>
      writeWord w (h.node n + 8) v
      writeVa w (h.slot v) (wordBytes [v, n, 0, 0, 0, 0, 0, 0])
      onDev fun d => d.inc F.TRK_FMUT_INSERTS w.collar
      return lateRes w { status := 0, rb := v }

/-- INSERT (R313). -/
def execInsert (bay thr : Nat) (env : List Reply) (s : State) : Host.Outcome State Fault Refusal :=
  s.run fun c d => d.runOpcode c bay thr 0x19 (fun _ => true) env 0 insertNode

/-- DELETE. -/
def deleteNode (w : Who) (t : Thread) : RM Res := do
  let word (i : Nat) : Nat := t.words.getD i 0
  match ← readIndex w t with
  | .error r => return r
  | .ok h =>
    let n := bits (word 5) 0 32
    if h.nodes ≤ n then return formatRes 0x28
    let st ← readWord w (h.node n)
    if ← stopped then return { status := 0 }
    if bits st 0 2 = 0 then return lateRes w { status := 0, ra := 1 }
    if (← casWord w (h.node n + 0x10) 0 tombPending) ≠ 0 then return lateRes w { status := 0, ra := 1 }
    match ← takeVsn w h with
    | none =>
      writeWord w (h.node n + 0x10) 0
      return { status := 0x15, ra := 2 }
    | some v =>
      writeWord w (h.node n + 0x10) v
      writeVa w (h.slot v) (wordBytes [v, n + 2 ^ 32, 0, 0, 0, 0, 0, 0])
      onDev fun d => d.inc F.TRK_FMUT_DELETES w.collar
      return lateRes w { status := 0, rb := v }

/-- DELETE (R313). -/
def execDelete (bay thr : Nat) (env : List Reply) (s : State) : Host.Outcome State Fault Refusal :=
  s.run fun c d => d.runOpcode c bay thr 0x1A (fun _ => true) env 0 deleteNode

/-! ### MERGE (R317 to R322) -/

/-- A stored vector with its norm. -/
structure PVec where
  node : Nat
  vec : List Nat
  norm : Nat
  deriving DecidableEq, Repr

/-- Read a node's vector. -/
def readVec (w : Who) (h : IHdr) (n : Nat) : RM PVec := do
  let r ← readNode w h n
  return { node := n, vec := r.vec, norm := if h.metric = 2 then normOf r.vec else 0 }

/-- The distance between two stored vectors. -/
def dist2 (h : IHdr) (a b : PVec) : Nat := distance h.metric a.vec a.norm b.vec b.norm

/-- Prune p over candidates (R320): the kept nodes in order. -/
def prune (h : IHdr) (alpha : Nat) (p : PVec) (cs : List PVec) : List PVec :=
  let ins (x : Nat × PVec) (l : List (Nat × PVec)) : List (Nat × PVec) :=
    l.takeWhile (fun y => keyLt y.1 y.2.node x.1 x.2.node) ++ [x] ++ l.dropWhile fun y => keyLt y.1 y.2.node x.1 x.2.node
  let sorted := (cs.map fun c => (dist2 h p c, c)).foldl (fun l x => ins x l) []
  let le (a b : Nat) : Bool := !keyLt b 0 a 0 && keyD a ≠ fp32.nan && keyD b ≠ fp32.nan
  sorted.foldl (fun kept x =>
    if h.deg ≤ kept.length || kept.any (fun r => le (fmul alpha (dist2 h r x.2)) x.1) then kept else kept ++ [x.2]) []

/-- Write a node's slots: the given nodes, then empty slots. -/
def writeSlots (w : Who) (h : IHdr) (n : Nat) (ns : List Nat) : RM Unit :=
  writeVa w (h.nbrs n) (elemBytes 4 ((ns ++ List.replicate h.deg 0xFFFFFFFF).take h.deg))

/-- Read the vectors of nodes, each once. -/
def readVecs (w : Who) (h : IHdr) (ns : List Nat) : RM (List PVec) := do
  let mut out : List PVec := []
  for n in ns.eraseDups do
    if !(← stopped) then
      let v ← readVec w h n
      out := out ++ [v]
  return out

/-- Add the edge r → n (R320). -/
def addEdge (w : Who) (h : IHdr) (alpha : Nat) (r : PVec) (n : Nat) : RM Unit := do
  let ns ← neighbours w h r.node
  match ns.findIdx? (fun x => h.nodes ≤ x) with
  | some i => writeVa w (h.nbrs r.node + 4 * i) (leBytes 4 n)
  | none =>
    let cs ← readVecs w h (ns ++ [n])
    writeSlots w h r.node ((prune h alpha r cs).map (·.node))

/-- Link one side node (step 4): the entry afterwards. -/
def linkNode (w : Who) (h : IHdr) (efc alpha e : Nat) (dead : List Nat) (n : Nat) (entry : Nat) : RM Nat := do
  if ← stopped then return entry
  if entry = 0xFFFFFFFF then
    writeSlots w h n []
    writeWord w (h.node n) 2
    writeWord w (h.tva + 0x88) n
    return n
  else
    let p ← readVec w h n
    let q0 : Query := { vec := p.vec, norm := p.norm, vsn := e, ef := efc, maxexp := 0 }
    let q1 ← consider w h q0 entry none
    let q ← walkGraph w h (h.nodes + 1) q1
    let graph (x : Nat) : Bool := q.seen.any fun s => s.node = x && s.graph
    let cs ← readVecs w h ((q.queue.map (·.node)).filter fun x => graph x && !(dead.contains x) && x ≠ n)
    let kept := prune h alpha p cs
    writeSlots w h n (kept.map (·.node))
    writeWord w (h.node n) 2
    for r in kept do addEdge w h alpha r n
    return entry

/-- Repair the slots of node p (R321); was its list rewritten? -/
def repairNode (w : Who) (h : IHdr) (alpha : Nat) (dead : List Nat) (p : Nat) : RM Bool := do
  if ← stopped then return false
  let st ← readWord w (h.node p)
  if bits st 0 2 ≠ 2 || dead.contains p then return false
  let ns := (← neighbours w h p).filter fun x => x < h.nodes
  let gone := ns.filter fun x => dead.contains x
  if gone.isEmpty then return false
  let mut cs := ns.filter fun x => !(dead.contains x)
  for g in gone do
    let more ← neighbours w h g
    cs := cs ++ more.filter fun x => decide (x < h.nodes) && !(dead.contains x) && x ≠ p
  let pv ← readVec w h p
  let vs ← readVecs w h cs
  writeSlots w h p ((prune h alpha pv vs).map (·.node))
  return true

/-- Is a node GRAPH and outside the removal set? -/
def liveGraph (w : Who) (h : IHdr) (dead : List Nat) (n : Nat) : RM Bool := do
  if dead.contains n || h.nodes ≤ n then return false
  let st ← readWord w (h.node n)
  return decide (bits st 0 2 = 2)

/-- The first node of a list that is a live GRAPH node. -/
def firstLive (w : Who) (h : IHdr) (dead : List Nat) : List Nat → RM (Option Nat)
  | [] => return none
  | n :: r => do if ← liveGraph w h dead n then return some n else firstLive w h dead r

/-- MERGE. DEDUCED (log 59). -/
def mergeIndex (w0 : Who) (t : Thread) : RM Res := do
  let w : Who := { w0 with deadline := none }
  let word (i : Nat) : Nat := t.words.getD i 0
  match ← readIndex w t with
  | .error r => return r
  | .ok h =>
    let efc := bits (word 3) 0 11
    let limit := bits (word 3) 16 15
    let alpha := word 3 / 2 ^ 32
    if (← casWord w (h.tva + 0x90) 0 (2 ^ 63 + t.collar * 2 ^ 32 + t.idx)) ≠ 0 then
      return lateRes w0 { status := 0, rb := 2 ^ 63 }
    let e := min h.vsn (h.head + limit)
    let mut links : List Nat := []
    let mut dead : List Nat := []
    let mut skipped := 0
    for i in List.range (e - h.head) do
      if !(← stopped) then
        let v := h.head + i
        match ← readSlot w h t v with
        | none => skipped := skipped + 1
        | some (x, n, del) =>
          if x = v && n < h.nodes then
            let r ← readNode w h n
            if !del && r.state = 1 && r.ins = v && r.tomb = 0 then links := links ++ [n]
            if del && r.tomb = v then dead := dead ++ [n]
    let mut entry := h.entry
    for n in links do
      entry ← linkNode w h efc alpha e dead n entry
    let mut graphDead := false
    for n in dead do
      let st ← readWord w (h.node n)
      if bits st 0 2 = 2 then graphDead := true
    let mut lists := 0
    if graphDead then
      for p in List.range h.nodes do
        if ← repairNode w h alpha dead p then lists := lists + 1
    if dead.contains entry then
      let first ← firstLive w h dead (← neighbours w h entry)
      let next ← match first with
        | some n => pure n
        | none => do pure ((← firstLive w h dead (List.range h.nodes)).getD 0xFFFFFFFF)
      writeWord w (h.tva + 0x88) next
    for n in dead do writeVa w (h.node n) (List.replicate h.nstride 0)
    writeWord w (h.tva + 0x80) e
    writeWord w (h.tva + 0x90) 0
    let sk := skipped
    onDev fun d => d.inc F.TRK_FPART_UNSEEN w.collar sk
    return lateRes w0 { status := 0, ra := satTo 32 links.length,
                        rb := satTo 32 dead.length + 2 ^ 32 * satTo 16 lists + 2 ^ 48 * satTo 15 skipped }

/-- MERGE (R319). DEDUCED (log 59). -/
def execMerge (bay thr : Nat) (env : List Reply) (s : State) : Host.Outcome State Fault Refusal :=
  s.run fun c d => d.runOpcode c bay thr 0x1B (fun _ => true) env 0 mergeIndex

/-! ### Side slots (R315) -/

/-- An unwritten side slot is read again, 1 µs after it was last read: the wait ends when it is written, and after
SIDE_WAIT the slot is given up. DESIGN CHOICE (log 60). -/
def execSideSlotReread (bay thr : Nat) (env : List Reply) (s : State) : Host.Outcome State Fault Refusal :=
  s.run fun c d => match d.thread bay thr with
    | none => d
    | some t => match t.side with
      | none => d
      | some (tva, v, first, last) =>
        if c.tmr < last + 100 then d
        else
          let w : Who := { c := c, bay := bay, thr := thr, collar := t.collar, cls := d.rd F.RNG_CTL_SERVICE t.ring }
          let (x, r) := (readWord w tva).run { d := d, env := env }
          if r.busy then d
          else match r.stop with
            | some l => r.d.endFault c bay thr { l with step := t.step } false
            | none =>
              let t' := if v ≤ x then { t with side := none }
                else if first + 100 * max 1 (d.rd F.TRK_CFG_SIDE_WAIT) ≤ c.tmr then
                  { t with side := none, skips := sadd t.skips v }
                else { t with side := some (tva, v, first, c.tmr) }
              r.d.putThread bay thr t'

end Sys2Proof.Machine
end

