-- ==== Sys2Proof/Machine/StepUnits.lean ====
section
/-! DEFINITION. Steps of the bay's own units: COAL (R265), COMB (R254, R255), SKETCH (R278, R280) and PQ (R300). -/
namespace Sys2Proof.Machine

/-! ### COAL -/

/-- COAL PROBE: record row SRCA with weight SRCB; ZERO when it was present. The table holds 1,024 rows. -/
def execProbe (bay thr : Nat) (ecc : Option Ecc) (s : State) : Host.Outcome State Fault Refusal :=
  s.run fun c d => d.stepRow c bay thr 6 0 ecc fun d t s =>
    let row := t.val s s.srca
    let wt := t.val s s.srcb % 2 ^ 32
    let tab := (tget d.coal (thrKey bay thr)).getD []
    let here := tab.any fun e => e.row = row
    let tab := if here then
        mapIf (fun (e : CoalEnt) => e.row = row) (fun e => { e with m := e.m + 1, w := fadd e.w wt }) tab
      else if tab.length < 1024 then tab ++ [({ row := row, m := 1, w := wt } : CoalEnt)] else tab
    let t := t.setFlag 2 here
    ({ d with coal := tset d.coal (thrKey bay thr) tab }).stepEnd c bay thr t

/-- COAL DRAIN: the first row recorded leaves: S[DST] gets the row and its multiplicity in [63:32], S[DST + 1] its weight
sum; ZERO when the table is empty. -/
def execCoalDrain (bay thr : Nat) (ecc : Option Ecc) (s : State) : Host.Outcome State Fault Refusal :=
  s.run fun c d => d.stepRow c bay thr 6 1 ecc fun d t s =>
    let k := thrKey bay thr
    match (tget d.coal k).getD [] with
    | [] => d.stepEnd c bay thr (t.setFlag 2 true)
    | e :: r =>
      let i := idxOf s.dst % 32
      let t := ((t.setS i (e.row % 2 ^ 32 + 2 ^ 32 * e.m)).setS (i + 1) e.w).setFlag 2 false
      ({ d with coal := tput [] d.coal k r }).stepEnd c bay thr t

/-! ### COMB -/

/-- Who a step's own accesses are made for. -/
def Dev.whoOf (d : Dev) (c : Cx) (bay thr : Nat) (t : Thread) : Who :=
  { c := c, bay := bay, thr := thr, collar := t.collar, cls := d.rd F.RNG_CTL_SERVICE t.ring, deadline := t.deadline }

/-- End a step that ran accesses whole: no event while a line is busy; a fault fills the latch (R207). -/
def Dev.runStep (d : Dev) (c : Cx) (bay thr : Nat) (t : Thread) (env : List Reply) (m : RM Unit) : Dev :=
  let ((), r) := m.run { d := d, env := env }
  if r.busy then d
  else match r.stop with
    | some l => r.d.stepEnd c bay thr (t.latchFault { l with step := t.step })
    | none => r.d.stepEnd c bay thr t

/-- COMB ACC: add SRCA, times SRCB when it is given, into the segment of the next line of stream DST; IMM[2:0] is OP and
IMM[6:4] DTYPE (R254). -/
def execAcc (bay thr : Nat) (env : List Reply) (ecc : Option Ecc) (s : State) : Host.Outcome State Fault Refusal :=
  s.run fun c d => d.stepRow c bay thr 7 0 ecc fun d t s =>
    let i := idxOf s.dst % 4
    match tget t.strms i with
    | none => d.stepEnd c bay thr t
    | some st =>
      let op := bits s.imm 0 3
      let dty := bits s.imm 4 3
      let n := 64 / dtyBytes dty
      let es := 2 ^ st.lg
      let k := max 1 (64 / es)
      if st.indexed || st.len / es < st.pos + k then d.stepEnd c bay thr t
      else if !t.inside s.srca (4 * n) then d.outsideEnd c bay thr t s.srca 1
      else if (reduceAop op dty).isNone then
        d.stepEnd c bay thr (t.latchFault { status := 0x10, type := 0, engine := 4, step := t.step })
      else
        let tva := if st.desc then st.base + st.len - (st.pos + k) * es else st.base + st.pos * es
        let w := if dty = 1 then 8 else 4
        let xs := elems w n (d.srcBytes (thrKey bay thr) t s s.srca (w * n))
        let f := t.val s s.srcb
        let scaled := kindOf s.srcb ≠ 0
        let add (touched : Bool) (j old : Nat) : Nat :=
          let x := xs.getD j 0
          if 2 ≤ dty && scaled && op = 0 then ffma f x old
          else combElem op dty touched old (if 2 ≤ dty && scaled then fmul f x else x)
        let t' := { t with strms := tset t.strms i { st with pos := st.pos + k } }
        d.runStep c bay thr t' env do
          match ← addrOf (d.whoOf c bay thr t) tva (needAtomic false) with
          | some a => combAdd (d.whoOf c bay thr t) t.step (a / 64 * 64) op dty (2 ^ n - 1) true add
          | none => return

/-- COMB FLUSH: every segment of the collar, in every bay (R255). -/
def execCombFlush (bay thr : Nat) (env : List Reply) (ecc : Option Ecc) (s : State) : Host.Outcome State Fault Refusal :=
  s.run fun c d => d.stepRow c bay thr 7 1 ecc fun d t _ =>
    d.runStep c bay thr t env (flushAll (d.whoOf c bay thr t) (some (bay, thr, t.step)) fun _ x => x.collar = t.collar)

/-! ### SKETCH -/

/-- SKETCH COUNT: row SRCA of the table whose header is descriptor word 2, used SRCB times (R278). -/
def execSketchCount (bay thr : Nat) (ecc : Option Ecc) (s : State) : Host.Outcome State Fault Refusal :=
  s.run fun c d => d.stepRow c bay thr 8 0 ecc fun d t s =>
    let d := if d.rd F.RTV_CFG_SKETCH_EN = 1 then
        d.sketchAdd bay t.collar (tableKey (t.words.getD 2 0)) (t.val s s.srca) (t.val s s.srcb % 2 ^ 32)
      else d
    d.stepEnd c bay thr t

/-- SKETCH READ: a snapshot of the bay's sketch into DST. The spec gives the snapshot no layout (R280), so its bytes are
free values. DESIGN CHOICE (log 51). -/
def execSketchRead (bay thr : Nat) (ecc : Option Ecc) (s : State) : Host.Outcome State Fault Refusal :=
  s.run fun c d => d.stepRow c bay thr 8 1 ecc fun d t s =>
    let n := 4 * t.active s
    if !t.inside s.dst n then d.outsideEnd c bay thr t s.dst 1
    else
      let (v, d) := d.pick
      let (d, t) := d.dstBytes (thrKey bay thr) t s.dst 0 (leBytes n v)
      d.stepEnd c bay thr t

/-! ### PQ -/

/-- The queue of the context a PQ step names in IMM[2:0]. -/
def pqKey (bay thr : Nat) (s : Step) : Nat := bay * 64 + 8 * thr + s.imm % 8

/-- A PQ step on its queue: the new queue, and the thread with its results; PQFULL and PQEMPTY refer to it (R200). -/
def Dev.pqStep (d : Dev) (c : Cx) (bay thr op : Nat) (ecc : Option Ecc)
    (f : Thread → Step → List Cand → List Cand × Thread) : Dev :=
  d.stepRow c bay thr 9 op ecc fun d t s =>
    let k := pqKey bay thr s
    let (q, t) := f ((t.setFlag 8 false).setFlag 9 false) s ((tget d.pq k).getD [])
    ({ d with pq := tput [] d.pq k q }).stepEnd c bay thr t

/-- PQ PUSH: distance SRCA, node SRCB, IMM[3] EXPANDED, IMM[4] ELIGIBLE. -/
def execPqPush (bay thr : Nat) (ecc : Option Ecc) (s : State) : Host.Outcome State Fault Refusal :=
  s.run fun c d => d.pqStep c bay thr 0 ecc fun t s q =>
    let (q', full) := candPush q { d := t.val s s.srca % 2 ^ 32, node := t.val s s.srcb % 2 ^ 32, expanded := bit s.imm 3,
                                   eligible := bit s.imm 4 }
    (q', t.setFlag 8 full)

/-- PQ POP: S[DST] gets the node, and its rank in [63:32]; with no candidate PQEMPTY and nothing returned. -/
def execPqPop (bay thr : Nat) (ecc : Option Ecc) (s : State) : Host.Outcome State Fault Refusal :=
  s.run fun c d => d.pqStep c bay thr 1 ecc fun t s q =>
    match candPop q with
    | some (q', x, rank) => (q', t.setS (idxOf s.dst) (x.node + 2 ^ 32 * rank))
    | none => (q, t.setFlag 9 true)

/-- PQ PEEK: the candidate at rank SRCA: S[DST] gets node and distance; nothing beyond the last. -/
def execPqPeek (bay thr : Nat) (ecc : Option Ecc) (s : State) : Host.Outcome State Fault Refusal :=
  s.run fun c d => d.pqStep c bay thr 2 ecc fun t s q =>
    match q[t.val s s.srca]? with
    | some x => (q, t.setS (idxOf s.dst) (x.node + 2 ^ 32 * x.d))
    | none => (q, t)

/-- PQ CLEAR. -/
def execPqClear (bay thr : Nat) (ecc : Option Ecc) (s : State) : Host.Outcome State Fault Refusal :=
  s.run fun c d => d.pqStep c bay thr 3 ecc fun t _ _ => ([], t)

end Sys2Proof.Machine
end

