-- ==== Sys2Proof/Machine/Dispatch.lean ====
section
/-! DEFINITION. One arm per row of spec/opcode_table.json: each calls that row's meaning. -/
namespace Sys2Proof.Machine

def exec (i : Instr) (s : State) : Host.Outcome State Fault Refusal :=
  match i with
  | .tailDoorbell fn lring tail tee => Sys2Proof.Machine.execTailDoorbell fn lring tail tee s
  | .resumeDoorbell fn lring tail tee => Sys2Proof.Machine.execResumeDoorbell fn lring tail tee s
  | .cheadDoorbell fn lring chead tee => Sys2Proof.Machine.execCheadDoorbell fn lring chead tee s
  | .fheadDoorbell fn fhead tee => Sys2Proof.Machine.execFheadDoorbell fn fhead tee s
  | .doorbell h fn lring kind value => Sys2Proof.Machine.execDoorbell h fn lring kind value s
  | .descriptorFetch ring words ecc => Sys2Proof.Machine.execDescriptorFetch ring words ecc s
  | .fetchFailure ring cause => Sys2Proof.Machine.execFetchFailure ring cause s
  | .dispatch ring idx => Sys2Proof.Machine.execDispatch ring idx s
  | .threadStart bay thr => Sys2Proof.Machine.execThreadStart bay thr s
  | .ctlNop bay thr ecc => Sys2Proof.Machine.execCtlNop bay thr ecc s
  | .lcset bay thr ecc => Sys2Proof.Machine.execLcset bay thr ecc s
  | .smov bay thr ecc => Sys2Proof.Machine.execSmov bay thr ecc s
  | .sadd bay thr ecc => Sys2Proof.Machine.execSadd bay thr ecc s
  | .ssub bay thr ecc => Sys2Proof.Machine.execSsub bay thr ecc s
  | .sand bay thr ecc => Sys2Proof.Machine.execSand bay thr ecc s
  | .sor bay thr ecc => Sys2Proof.Machine.execSor bay thr ecc s
  | .sshl bay thr ecc => Sys2Proof.Machine.execSshl bay thr ecc s
  | .sshr bay thr ecc => Sys2Proof.Machine.execSshr bay thr ecc s
  | .smul bay thr ecc => Sys2Proof.Machine.execSmul bay thr ecc s
  | .ldseq bay thr ecc => Sys2Proof.Machine.execLdseq bay thr ecc s
  | .ldrow bay thr ecc => Sys2Proof.Machine.execLdrow bay thr ecc s
  | .ldidx bay thr ecc => Sys2Proof.Machine.execLdidx bay thr ecc s
  | .ldshadow bay thr env ecc => Sys2Proof.Machine.execLdshadow bay thr env ecc s
  | .stseq bay thr ecc => Sys2Proof.Machine.execStseq bay thr ecc s
  | .strow bay thr ecc => Sys2Proof.Machine.execStrow bay thr ecc s
  | .stmask bay thr ecc => Sys2Proof.Machine.execStmask bay thr ecc s
  | .atomAtomic bay thr ecc => Sys2Proof.Machine.execAtomAtomic bay thr ecc s
  | .laneFma bay thr ecc => Sys2Proof.Machine.execLaneFma bay thr ecc s
  | .laneAdd bay thr ecc => Sys2Proof.Machine.execLaneAdd bay thr ecc s
  | .laneMul bay thr ecc => Sys2Proof.Machine.execLaneMul bay thr ecc s
  | .laneMax bay thr ecc => Sys2Proof.Machine.execLaneMax bay thr ecc s
  | .laneMin bay thr ecc => Sys2Proof.Machine.execLaneMin bay thr ecc s
  | .laneScale bay thr ecc => Sys2Proof.Machine.execLaneScale bay thr ecc s
  | .laneDot bay thr ecc => Sys2Proof.Machine.execLaneDot bay thr ecc s
  | .mac8 bay thr ecc => Sys2Proof.Machine.execMac8 bay thr ecc s
  | .mac4 bay thr ecc => Sys2Proof.Machine.execMac4 bay thr ecc s
  | .quant bay thr ecc => Sys2Proof.Machine.execQuant bay thr ecc s
  | .dequant bay thr ecc => Sys2Proof.Machine.execDequant bay thr ecc s
  | .probe bay thr ecc => Sys2Proof.Machine.execProbe bay thr ecc s
  | .coalDrain bay thr ecc => Sys2Proof.Machine.execCoalDrain bay thr ecc s
  | .acc bay thr env ecc => Sys2Proof.Machine.execAcc bay thr env ecc s
  | .combFlush bay thr env ecc => Sys2Proof.Machine.execCombFlush bay thr env ecc s
  | .sketchCount bay thr ecc => Sys2Proof.Machine.execSketchCount bay thr ecc s
  | .sketchRead bay thr ecc => Sys2Proof.Machine.execSketchRead bay thr ecc s
  | .pqPush bay thr ecc => Sys2Proof.Machine.execPqPush bay thr ecc s
  | .pqPop bay thr ecc => Sys2Proof.Machine.execPqPop bay thr ecc s
  | .pqPeek bay thr ecc => Sys2Proof.Machine.execPqPeek bay thr ecc s
  | .pqClear bay thr ecc => Sys2Proof.Machine.execPqClear bay thr ecc s
  | .copy bay thr ecc => Sys2Proof.Machine.execCopy bay thr ecc s
  | .strmSeq bay thr ecc => Sys2Proof.Machine.execStrmSeq bay thr ecc s
  | .strmIdx bay thr ecc => Sys2Proof.Machine.execStrmIdx bay thr ecc s
  | .strmBag bay thr ecc => Sys2Proof.Machine.execStrmBag bay thr ecc s
  | .strmClose bay thr ecc => Sys2Proof.Machine.execStrmClose bay thr ecc s
  | .wait bay thr ecc => Sys2Proof.Machine.execWait bay thr ecc s
  | .doneComplete bay thr ecc => Sys2Proof.Machine.execDoneComplete bay thr ecc s
  | .doneFault bay thr ecc => Sys2Proof.Machine.execDoneFault bay thr ecc s
  | .donePark bay thr ecc => Sys2Proof.Machine.execDonePark bay thr ecc s
  | .accessResponse bay thr acc ecc => Sys2Proof.Machine.execAccessResponse bay thr acc ecc s
  | .threadFree bay thr => Sys2Proof.Machine.execThreadFree bay thr s
  | .stepWatchdog bay thr => Sys2Proof.Machine.execStepWatchdog bay thr s
  | .walkStart group => Sys2Proof.Machine.execWalkStart group s
  | .walkComplete collar page env => Sys2Proof.Machine.execWalkComplete collar page env s
  | .moveTensor bay thr env => Sys2Proof.Machine.execMoveTensor bay thr env s
  | .moveRaw bay thr env => Sys2Proof.Machine.execMoveRaw bay thr env s
  | .moveGather bay thr env => Sys2Proof.Machine.execMoveGather bay thr env s
  | .compress bay thr env => Sys2Proof.Machine.execCompress bay thr env s
  | .expand bay thr env => Sys2Proof.Machine.execExpand bay thr env s
  | .convert bay thr env => Sys2Proof.Machine.execConvert bay thr env s
  | .mcastStore bay thr env => Sys2Proof.Machine.execMcastStore bay thr env s
  | .reduceRemote bay thr env => Sys2Proof.Machine.execReduceRemote bay thr env s
  | .gatherPool bay thr env => Sys2Proof.Machine.execGatherPool bay thr env s
  | .scatterAddAdd bay thr env => Sys2Proof.Machine.execScatterAddAdd bay thr env s
  | .requant bay thr env => Sys2Proof.Machine.execRequant bay thr env s
  | .adagrad bay thr env => Sys2Proof.Machine.execAdagrad bay thr env s
  | .shardProbe bay thr env => Sys2Proof.Machine.execShardProbe bay thr env s
  | .migrate bay thr env => Sys2Proof.Machine.execMigrate bay thr env s
  | .release bay thr env => Sys2Proof.Machine.execRelease bay thr env s
  | .drop bay thr env => Sys2Proof.Machine.execDrop bay thr env s
  | .search bay thr env => Sys2Proof.Machine.execSearch bay thr env s
  | .insert bay thr env => Sys2Proof.Machine.execInsert bay thr env s
  | .delete bay thr env => Sys2Proof.Machine.execDelete bay thr env s
  | .merge bay thr env => Sys2Proof.Machine.execMerge bay thr env s
  | .sideSlotReread bay thr env => Sys2Proof.Machine.execSideSlotReread bay thr env s
  | .promote bay thr env => Sys2Proof.Machine.execPromote bay thr env s
  | .demote bay thr env => Sys2Proof.Machine.execDemote bay thr env s
  | .shadow bay thr env => Sys2Proof.Machine.execShadow bay thr env s
  | .shadowDrop bay thr env => Sys2Proof.Machine.execShadowDrop bay thr env s
  | .heel ring idx => Sys2Proof.Machine.execHeel ring idx s
  | .fence ring idx env => Sys2Proof.Machine.execFence ring idx env s
  | .fenceComplete ring idx env => Sys2Proof.Machine.execFenceComplete ring idx env s
  | .mark ring idx => Sys2Proof.Machine.execMark ring idx s
  | .xlateInvalRange ring idx env => Sys2Proof.Machine.execXlateInvalRange ring idx env s
  | .xlateInvalFunction ring idx env => Sys2Proof.Machine.execXlateInvalFunction ring idx env s
  | .xlateInvalDrainEnd => Sys2Proof.Machine.execXlateInvalDrainEnd s
  | .xlateInvalWindow ring idx => Sys2Proof.Machine.execXlateInvalWindow ring idx s
  | .windowCloseDrainEnd window env => Sys2Proof.Machine.execWindowCloseDrainEnd window env s
  | .completionWrite ring idx => Sys2Proof.Machine.execCompletionWrite ring idx s
  | .irqTimer ring => Sys2Proof.Machine.execIrqTimer ring s
  | .msixUnmask fn vec => Sys2Proof.Machine.execMsixUnmask fn vec s
  | .completionWriteFailure ring idx cause => Sys2Proof.Machine.execCompletionWriteFailure ring idx cause s
  | .faultRingWriteFailure fn cause => Sys2Proof.Machine.execFaultRingWriteFailure fn cause s
  | .rdShared h ecc => Sys2Proof.Machine.execRdShared h ecc s
  | .rdOwn h ecc => Sys2Proof.Machine.execRdOwn h ecc s
  | .upgrade h ecc => Sys2Proof.Machine.execUpgrade h ecc s
  | .rdOnce h lines ecc => Sys2Proof.Machine.execRdOnce h lines ecc s
  | .wrLine h lines data ecc => Sys2Proof.Machine.execWrLine h lines data ecc s
  | .wrMask h mask data ecc => Sys2Proof.Machine.execWrMask h mask data ecc s
  | .wb h data ecc => Sys2Proof.Machine.execWb h data ecc s
  | .atomic h aop ety fetch whole slot ecc => Sys2Proof.Machine.execAtomic h aop ety fetch whole slot ecc s
  | .zeroMark h aop ety => Sys2Proof.Machine.execZeroMark h aop ety s
  | .mcBlock h data ecc => Sys2Proof.Machine.execMcBlock h data ecc s
  | .mcZero h => Sys2Proof.Machine.execMcZero h s
  | .cmp h status => Sys2Proof.Machine.execCmp h status s
  | .data h status data => Sys2Proof.Machine.execData h status data s
  | .ack h => Sys2Proof.Machine.execAck h s
  | .miss h => Sys2Proof.Machine.execMiss h s
  | .fwdDone h => Sys2Proof.Machine.execFwdDone h s
  | .fwdMiss h => Sys2Proof.Machine.execFwdMiss h s
  | .snpData h data => Sys2Proof.Machine.execSnpData h data s
  | .trackerAdmit line => Sys2Proof.Machine.execTrackerAdmit line s
  | .snoopTimeout node line => Sys2Proof.Machine.execSnoopTimeout node line s
  | .fabricTimeout tag => Sys2Proof.Machine.execFabricTimeout tag s
  | .birspTimeout spid line => Sys2Proof.Machine.execBirspTimeout spid line s
  | .memrd pbr tag hpa mv ecc => Sys2Proof.Machine.execMemrd pbr tag hpa mv ecc s
  | .memrddata pbr tag hpa ecc => Sys2Proof.Machine.execMemrddata pbr tag hpa ecc s
  | .meminv pbr tag hpa ecc => Sys2Proof.Machine.execMeminv pbr tag hpa ecc s
  | .memwr pbr tag hpa data poison ecc => Sys2Proof.Machine.execMemwr pbr tag hpa data poison ecc s
  | .memwrptl pbr tag hpa mask data poison ecc => Sys2Proof.Machine.execMemwrptl pbr tag hpa mask data poison ecc s
  | .memclnevct pbr tag hpa => Sys2Proof.Machine.execMemclnevct pbr tag hpa s
  | .birsp pbr line kept => Sys2Proof.Machine.execBirsp pbr line kept s
  | .biconflict pbr line => Sys2Proof.Machine.execBiconflict pbr line s
  | .cxlLinkLoss => Sys2Proof.Machine.execCxlLinkLoss s
  | .perstAssert => Sys2Proof.Machine.execPerstAssert s
  | .perstRelease => Sys2Proof.Machine.execPerstRelease s
  | .pcieFlr fn => Sys2Proof.Machine.execPcieFlr fn s
  | .vfEnableClear => Sys2Proof.Machine.execVfEnableClear s
  | .ideIntegrityFailure stream => Sys2Proof.Machine.execIdeIntegrityFailure stream s
  | .hdmDecoderCommit dec base size iw ig skip pos hdmDb lock => Sys2Proof.Machine.execHdmDecoderCommit dec base size iw ig skip pos hdmDb lock s
  | .getEventRecords log => Sys2Proof.Machine.execGetEventRecords log s
  | .clearEventRecords log all handles => Sys2Proof.Machine.execClearEventRecords log all handles s
  | .getEventInterruptPolicy => Sys2Proof.Machine.execGetEventInterruptPolicy s
  | .setEventInterruptPolicy settings => Sys2Proof.Machine.execSetEventInterruptPolicy settings s
  | .getFwInfo => Sys2Proof.Machine.execGetFwInfo s
  | .getTimestamp => Sys2Proof.Machine.execGetTimestamp s
  | .setTimestamp ns => Sys2Proof.Machine.execSetTimestamp ns s
  | .getSupportedLogs => Sys2Proof.Machine.execGetSupportedLogs s
  | .getLog cel => Sys2Proof.Machine.execGetLog cel s
  | .identifyMemoryDevice => Sys2Proof.Machine.execIdentifyMemoryDevice s
  | .getDynamicCapacityConfiguration => Sys2Proof.Machine.execGetDynamicCapacityConfiguration s
  | .getDynamicCapacityExtentList first count => Sys2Proof.Machine.execGetDynamicCapacityExtentList first count s
  | .addDynamicCapacityResponse accepted => Sys2Proof.Machine.execAddDynamicCapacityResponse accepted s
  | .releaseDynamicCapacity released => Sys2Proof.Machine.execReleaseDynamicCapacity released s
  | .mailboxUnsupported opcode => Sys2Proof.Machine.execMailboxUnsupported opcode s
  | .tableAccess => Sys2Proof.Machine.execTableAccess s
  | .getVersion via => Sys2Proof.Machine.execGetVersion via s
  | .getCapabilities via => Sys2Proof.Machine.execGetCapabilities via s
  | .negotiateAlgorithms via ok => Sys2Proof.Machine.execNegotiateAlgorithms via ok s
  | .getDigests via sess => Sys2Proof.Machine.execGetDigests via sess s
  | .getCertificate via sess slot off n => Sys2Proof.Machine.execGetCertificate via sess slot off n s
  | .challenge via sess slot => Sys2Proof.Machine.execChallenge via sess slot s
  | .getMeasurements via sess index sign => Sys2Proof.Machine.execGetMeasurements via sess index sign s
  | .keyExchange via period => Sys2Proof.Machine.execKeyExchange via period s
  | .finish sess ok => Sys2Proof.Machine.execFinish sess ok s
  | .heartbeat sess => Sys2Proof.Machine.execHeartbeat sess s
  | .sessionHeartbeatMiss sess => Sys2Proof.Machine.execSessionHeartbeatMiss sess s
  | .keyUpdate sess op => Sys2Proof.Machine.execKeyUpdate sess op s
  | .endSession sess => Sys2Proof.Machine.execEndSession sess s
  | .ideKm sess op stream keySet dir sub => Sys2Proof.Machine.execIdeKm sess op stream keySet dir sub s
  | .lockInterfaceRequest sess fn stream => Sys2Proof.Machine.execLockInterfaceRequest sess fn stream s
  | .startInterfaceRequest sess fn nonce => Sys2Proof.Machine.execStartInterfaceRequest sess fn nonce s
  | .stopInterfaceRequest sess fn => Sys2Proof.Machine.execStopInterfaceRequest sess fn s
  | .linkDetect link => Sys2Proof.Machine.execLinkDetect link s
  | .trainingStepTimeout link step => Sys2Proof.Machine.execTrainingStepTimeout link step s
  | .ident link node nodev peer acc hash plain => Sys2Proof.Machine.execIdent link node nodev peer acc hash plain s
  | .keymsg link part frag last data chainOk hashOk sigOk => Sys2Proof.Machine.execKeymsg link part frag last data chainOk hashOk sigOk s
  | .flitReceive link f => Sys2Proof.Machine.execFlitReceive link f s
  | .linkRetireEnd link => Sys2Proof.Machine.execLinkRetireEnd link s
  | .retryReq link seq => Sys2Proof.Machine.execRetryReq link seq s
  | .retryReqRepeat link => Sys2Proof.Machine.execRetryReqRepeat link s
  | .credit link vc slots => Sys2Proof.Machine.execCredit link vc slots s
  | .messageTransmit link idle => Sys2Proof.Machine.execMessageTransmit link idle s
  | .rekey link asked => Sys2Proof.Machine.execRekey link asked s
  | .keySwitch link at_ => Sys2Proof.Machine.execKeySwitch link at_ s
  | .keyReady link at_ => Sys2Proof.Machine.execKeyReady link at_ s
  | .keySwitchDeadline link => Sys2Proof.Machine.execKeySwitchDeadline link s
  | .lossOfSignal link => Sys2Proof.Machine.execLossOfSignal link s
  | .linkEnable link => Sys2Proof.Machine.execLinkEnable link s
  | .linkDisable link => Sys2Proof.Machine.execLinkDisable link s
  | .retrain link => Sys2Proof.Machine.execRetrain link s
  | .cablePresenceChange conn present => Sys2Proof.Machine.execCablePresenceChange conn present s
  | .switchForward link m => Sys2Proof.Machine.execSwitchForward link m s
  | .beacon src epoch last => Sys2Proof.Machine.execBeacon src epoch last s
  | .beaconTimer => Sys2Proof.Machine.execBeaconTimer s
  | .memberLossTime node => Sys2Proof.Machine.execMemberLossTime node s
  | .heelStart => Sys2Proof.Machine.execHeelStart s
  | .heelDrain src e => Sys2Proof.Machine.execHeelDrain src e s
  | .memberDrainEnd env => Sys2Proof.Machine.execMemberDrainEnd env s
  | .heelDrained src e => Sys2Proof.Machine.execHeelDrained src e s
  | .heelHold src e env => Sys2Proof.Machine.execHeelHold src e env s
  | .memberHoldEnd env => Sys2Proof.Machine.execMemberHoldEnd env s
  | .heelHeld src e => Sys2Proof.Machine.execHeelHeld src e s
  | .heelHoldLimit => Sys2Proof.Machine.execHeelHoldLimit s
  | .heelAbort src e => Sys2Proof.Machine.execHeelAbort src e s
  | .heelCut src e f lost => Sys2Proof.Machine.execHeelCut src e f lost s
  | .memberShipEnd => Sys2Proof.Machine.execMemberShipEnd s
  | .heelShipped src e => Sys2Proof.Machine.execHeelShipped src e s
  | .heelCommit src e => Sys2Proof.Machine.execHeelCommit src e s
  | .heelRollback src r cause lost => Sys2Proof.Machine.execHeelRollback src r cause lost s
  | .rollbackRestoreEnd => Sys2Proof.Machine.execRollbackRestoreEnd s
  | .heelRolled src seen => Sys2Proof.Machine.execHeelRolled src seen s
  | .heelResume src f => Sys2Proof.Machine.execHeelResume src f s
  | .offer src kind object gen => Sys2Proof.Machine.execOffer src kind object gen s
  | .handAck src kind object gen => Sys2Proof.Machine.execHandAck src kind object gen s
  | .handoffTimeout kind object => Sys2Proof.Machine.execHandoffTimeout kind object s
  | .parityDelta h epoch blk data ecc => Sys2Proof.Machine.execParityDelta h epoch blk data ecc s
  | .rebuildRd h r => Sys2Proof.Machine.execRebuildRd h r s
  | .rebuildData h zero status data => Sys2Proof.Machine.execRebuildData h zero status data s
  | .rebuildRangeEnd pages => Sys2Proof.Machine.execRebuildRangeEnd pages s
  | .propose src ch => Sys2Proof.Machine.execPropose src ch s
  | .append src term index pterm e => Sys2Proof.Machine.execAppend src term index pterm e s
  | .appendAck src index term ok => Sys2Proof.Machine.execAppendAck src index term ok s
  | .voteReq src term lterm lindex => Sys2Proof.Machine.execVoteReq src term lterm lindex s
  | .vote src term granted => Sys2Proof.Machine.execVote src term granted s
  | .keepHeartbeat src term committed => Sys2Proof.Machine.execKeepHeartbeat src term committed s
  | .heartbeatTimer => Sys2Proof.Machine.execHeartbeatTimer s
  | .electionTimeout => Sys2Proof.Machine.execElectionTimeout s
  | .keepCommit src index epoch nodes heel => Sys2Proof.Machine.execKeepCommit src index epoch nodes heel s
  | .keepFetch src node epoch => Sys2Proof.Machine.execKeepFetch src node epoch s
  | .records src recs => Sys2Proof.Machine.execRecords src recs s
  | .recordsTimeout => Sys2Proof.Machine.execRecordsTimeout s
  | .mapFetchTimer => Sys2Proof.Machine.execMapFetchTimer s
  | .applied src epoch => Sys2Proof.Machine.execApplied src epoch s
  | .mapEpochApply => Sys2Proof.Machine.execMapEpochApply s
  | .revocationStart knl => Sys2Proof.Machine.execRevocationStart knl s
  | .revocationDrainEnd knl => Sys2Proof.Machine.execRevocationDrainEnd knl s
  | .scrubEnd knl => Sys2Proof.Machine.execScrubEnd knl s
  | .kennelDrain knl => Sys2Proof.Machine.execKennelDrain knl s
  | .flr fn => Sys2Proof.Machine.execFlr fn s
  | .functionEnable fn => Sys2Proof.Machine.execFunctionEnable fn s
  | .functionDisable fn => Sys2Proof.Machine.execFunctionDisable fn s
  | .quiesce fn => Sys2Proof.Machine.execQuiesce fn s
  | .quiesceDrainEnd fn => Sys2Proof.Machine.execQuiesceDrainEnd fn s
  | .ringBind ring collar lgroup bound => Sys2Proof.Machine.execRingBind ring collar lgroup bound s
  | .ringEnable ring => Sys2Proof.Machine.execRingEnable ring s
  | .ringResetRequest ring => Sys2Proof.Machine.execRingResetRequest ring s
  | .ringReset ring => Sys2Proof.Machine.execRingReset ring s
  | .ringResetDrainEnd ring => Sys2Proof.Machine.execRingResetDrainEnd ring s
  | .ringProgressWatchdog ring => Sys2Proof.Machine.execRingProgressWatchdog ring s
  | .escalation => Sys2Proof.Machine.execEscalation s
  | .moduleReset reach sigs intact lost => Sys2Proof.Machine.execModuleReset reach sigs intact lost s
  | .resetStepLimit => Sys2Proof.Machine.execResetStepLimit s
  | .rasResetGo => Sys2Proof.Machine.execRasResetGo s
  | .resetPin => Sys2Proof.Machine.execResetPin s
  | .lineCacheFillEnd page ecc can => Sys2Proof.Machine.execLineCacheFillEnd page ecc can s
  | .flashProgramEnd unit ok => Sys2Proof.Machine.execFlashProgramEnd unit ok s
  | .dirtyWriteback => Sys2Proof.Machine.execDirtyWriteback s
  | .garbageCollection ch ok => Sys2Proof.Machine.execGarbageCollection ch ok s
  | .flashBudgetAccrual => Sys2Proof.Machine.execFlashBudgetAccrual s
  | .leashAccrual => Sys2Proof.Machine.execLeashAccrual s
  | .leakPeriod kind => Sys2Proof.Machine.execLeakPeriod kind s
  | .sysLock => Sys2Proof.Machine.execSysLock s
  | .windowOpen window value => Sys2Proof.Machine.execWindowOpen window value s
  | .faultRingEnable fn value => Sys2Proof.Machine.execFaultRingEnable fn value s
  | .tierEnable value => Sys2Proof.Machine.execTierEnable value s
  | .quotaWrite knl kind value => Sys2Proof.Machine.execQuotaWrite knl kind value s
  | .leashWrite level inst wgt value => Sys2Proof.Machine.execLeashWrite level inst wgt value s
  | .rasLkcfgWrite kind value => Sys2Proof.Machine.execRasLkcfgWrite kind value s
  | .fenceAndTest kind inst => Sys2Proof.Machine.execFenceAndTest kind inst s
  | .returnResource kind inst => Sys2Proof.Machine.execReturn kind inst s
  | .selfTestEnd pass => Sys2Proof.Machine.execSelfTestEnd pass s
  | .domainSwitch dom on => Sys2Proof.Machine.execDomainSwitch dom on s
  | .domainDrainEnd dom => Sys2Proof.Machine.execDomainDrainEnd dom s
  | .orderlyPowerDown => Sys2Proof.Machine.execOrderlyPowerDown s
  | .powerDownSaveEnd env => Sys2Proof.Machine.execPowerDownSaveEnd env s
  | .fwWrite page data => Sys2Proof.Machine.execFwWrite page data s
  | .fwCommit img => Sys2Proof.Machine.execFwCommit img s
  | .fwAbort => Sys2Proof.Machine.execFwAbort s
  | .updateClaimTimeout => Sys2Proof.Machine.execUpdateClaimTimeout s
  | .svnAdvance target => Sys2Proof.Machine.execSvnAdvance target s
  | .getCert pos => Sys2Proof.Machine.execGetCert pos s
  | .dbgChallenge => Sys2Proof.Machine.execDbgChallenge s
  | .dbgUnlock token sig => Sys2Proof.Machine.execDbgUnlock token sig s
  | .traceEnable bay value => Sys2Proof.Machine.execTraceEnable bay value s
  | .ptrPdata0 slice => Sys2Proof.Machine.execPtrPdata0 slice s
  | .shpTdata0 => Sys2Proof.Machine.execShpTdata0 s
  | .rtvRdata0 => Sys2Proof.Machine.execRtvRdata0 s
  | .registerReadClear sp off width tee => Sys2Proof.Machine.execRegisterReadClear sp off width tee s
  | .windowWrite off width value => Sys2Proof.Machine.execWindowWrite off width value s
  | .windowRead off width => Sys2Proof.Machine.execWindowRead off width s
  | .registerWrite sp off width value tee sig img => Sys2Proof.Machine.execRegisterWrite sp off width value tee sig img s
  | .powerOn mfg slotid recov reach sigs report => Sys2Proof.Machine.execPowerOn mfg slotid recov reach sigs report s
  | .startupStepLimit => Sys2Proof.Machine.execStartupStepLimit s
  | .protectiveShutdown high => Sys2Proof.Machine.execProtectiveShutdown high s
  | .inputRecovery reach sigs report => Sys2Proof.Machine.execInputRecovery reach sigs report s
  | .thermalTrip sensor => Sys2Proof.Machine.execThermalTrip sensor s
  | .sensorSample temps => Sys2Proof.Machine.execSensorSample temps s
  | .powerSample mv ma => Sys2Proof.Machine.execPowerSample mv ma s
  | .dutyAdjust => Sys2Proof.Machine.execDutyAdjust s
  | .lostlock pll => Sys2Proof.Machine.execLostlock pll s
  | .marginMeasurement eyes drams rails => Sys2Proof.Machine.execMarginMeasurement eyes drams rails s
  | .alertStatus => Sys2Proof.Machine.execAlertStatus s
  | .alertClear mask => Sys2Proof.Machine.execAlertClear mask s
  | .faultRead => Sys2Proof.Machine.execFaultRead s
  | .mapStatus => Sys2Proof.Machine.execMapStatus s
  | .powerdown sess => Sys2Proof.Machine.execPowerdown sess s
  | .vendorModuleReset sess => Sys2Proof.Machine.execVendorModuleReset sess s
  | .mapGenesis sess recs => Sys2Proof.Machine.execMapGenesis sess recs s
  | .mapPropose sess ch => Sys2Proof.Machine.execMapPropose sess ch s
  | .vendorDbgChallenge => Sys2Proof.Machine.execVendorDbgChallenge s
  | .vendorDbgUnlock token sig => Sys2Proof.Machine.execVendorDbgUnlock token sig s
  | .getTid => Sys2Proof.Machine.execGetTid s
  | .setTid tid => Sys2Proof.Machine.execSetTid tid s
  | .getPldmVersion type => Sys2Proof.Machine.execGetPldmVersion type s
  | .getPldmTypes => Sys2Proof.Machine.execGetPldmTypes s
  | .getPldmCommands type => Sys2Proof.Machine.execGetPldmCommands type s
  | .getPdr handle => Sys2Proof.Machine.execGetPdr handle s
  | .getPdrRepositoryInfo => Sys2Proof.Machine.execGetPdrRepositoryInfo s
  | .getSensorReading sensor => Sys2Proof.Machine.execGetSensorReading sensor s
  | .getStateSensorReadings sensor => Sys2Proof.Machine.execGetStateSensorReadings sensor s
  | .queryDeviceIdentifiers => Sys2Proof.Machine.execQueryDeviceIdentifiers s
  | .getFirmwareParameters => Sys2Proof.Machine.execGetFirmwareParameters s
  | .requestUpdate => Sys2Proof.Machine.execRequestUpdate s
  | .passComponentTable components => Sys2Proof.Machine.execPassComponentTable components s
  | .updateComponent size => Sys2Proof.Machine.execUpdateComponent size s
  | .firmwareData data img other => Sys2Proof.Machine.execFirmwareData data img other s
  | .activateFirmware => Sys2Proof.Machine.execActivateFirmware s
  | .getStatus => Sys2Proof.Machine.execGetStatus s
  | .cancelUpdateComponent => Sys2Proof.Machine.execCancelUpdateComponent s
  | .cancelUpdate => Sys2Proof.Machine.execCancelUpdate s
  | .lostAlignment link => Sys2Proof.Machine.execLostAlignment link s
  | .framingLock link => Sys2Proof.Machine.execFramingLock link s
  | .cxlLinkUp width rate cxl lopt => Sys2Proof.Machine.execCxlLinkUp width rate cxl lopt s
  | .inputRemoval => Sys2Proof.Machine.execInputRemoval s
  | .domainSwitchOnEnd dom => Sys2Proof.Machine.execDomainSwitchOnEnd dom s
  | .powerDownQuietLimit => Sys2Proof.Machine.execPowerDownQuietLimit s
  | .deviceLost => Sys2Proof.Machine.execDeviceLost s
  | .intr h => Sys2Proof.Machine.execIntr h s
  | .mctpControl cmd arg => Sys2Proof.Machine.execMctpControl cmd arg s
  | .setaasa => Sys2Proof.Machine.execSetaasa s
  | .entdaa addr => Sys2Proof.Machine.execEntdaa addr s
  | .interfaceReport sess fn => Sys2Proof.Machine.execInterfaceReport sess fn s

end Sys2Proof.Machine
end

