-- ==== Sys2Proof/Machine/Step.lean ====
section
/-! DEFINITION. A step takes the command at the front of the queue; with nothing in the queue a tick of TMR passes. -/
namespace Sys2Proof.Machine

/-- One step: the command at the front is taken out of the queue and has its effect; on an empty queue a tick passes
(State.tick). DESIGN CHOICE (log 1, 3, 93). -/
def step (s : State) : Host.Outcome State Fault Refusal :=
  match s.pending with
  | [] => .next s.tick
  | c :: r => exec c { s with pending := r }

/-- The command that a word spells, put at the front of the queue; s itself where the word spells none. DESIGN CHOICE (log 1). -/
def State.withFetchWord (s : State) (nbits w : Nat) : State :=
  match decodeTableWord nbits w with
  | some c => { s with pending := c :: s.pending }
  | none => s

end Sys2Proof.Machine
end

