-- ==== Sys2Proof/Safety.lean ====
section
/-! DEFINITION. What statements say of states: how an answer is written, the canonical form of the memory, the commands that
alone may touch the lock and the timer, and the conditions under which commands have their effect. -/
namespace Sys2Proof.Machine

/-! ### Writing an answer -/

/-- The state with its block replaced. -/
def State.withDev (s : State) (d : Dev) : State := { s with dev := d }

/-- The state after something has been shown to the outside, and nothing else. -/
def State.shows (s : State) (o : Out) : State := s.withDev { s.dev with out := s.dev.out ++ [o] }

/-! ### The canonical form of a memory -/

/-- Keys strictly rising. -/
def rising {α : Type} : Tbl α → Bool
  | [] => true
  | (k, _) :: r => (match r with
    | [] => true
    | (j, _) :: _ => decide (k < j)) && rising r

/-- The canonical form of a memory: addresses strictly rising, and no entry equal to what an unlisted address reads as. -/
def Memory.wf (t : Tbl Byte) : Bool := rising t && t.all fun (_, b) => b != 0

/-- The memories of a state: the store, the flash behind it, and the boot flash. -/
def State.memWf (s : State) : Bool := Memory.wf s.dev.mem && Memory.wf s.dev.flash && Memory.wf s.dev.bootFlash

/-! ### The lock and the timer -/

/-- The commands that may clear SYS_LOCK.LOCK (R8): a module reset and the two starts. -/
def mayUnlock : Instr → Bool
  | .moduleReset _ _ _ _ => true
  | .powerOn _ _ _ _ _ _ => true
  | .inputRecovery _ _ _ => true
  | _ => false

/-- The commands that may set it: a write of SYS_LOCK. -/
def mayLock : Instr → Bool
  | .sysLock => true
  | .registerWrite _ _ _ _ _ _ _ => true
  | _ => false

/-- The command that may set TMR: power-on (R545). -/
def mayRestartTimer : Instr → Bool
  | .powerOn _ _ _ _ _ _ => true
  | _ => false

/-! ### Conditions under which commands have their effect -/

/-- Session `id` is an established MCTP session of the root of trust in service, and its next record ends it not (R516). -/
def State.mctp (s : State) (id : Nat) (x : Sess) : Prop :=
  s.dev.aon = true ∧ s.dev.rtp = 1 ∧ s.dev.sessions.find? (fun y => y.id = id) = some x ∧ x.via = 1 ∧ x.est = true ∧
    x.rx + 1 < 2 ^ 32 ∧ x.tx + 1 < 2 ^ 32

/-- A module reset may be requested: none runs or waits, start-up and power-down do not run, the module is not lost, and
the hour has room for one more (R489, R492). -/
def State.mayReset (s : State) : Prop :=
  s.dev.lostFor = 0 ∧ s.dev.rd F.PWR_SEQ_PHASE < 7 ∧ s.dev.upStep = 0 ∧ (∀ r ∈ s.dev.running, r.tr.prio ≠ 1) ∧
    (∀ r ∈ s.dev.wanted, r.prio ≠ 1) ∧
    (s.dev.resetTimes.filter fun t => s.tmr < t + 360000000000).length < max 1 (s.dev.rd F.RAS_CFG_MAXRST)

/-- A field of a register as the register map places it: its register number and first bit are in range. -/
def Fld.ok (f : Fld) : Prop := f.reg < 256 ∧ f.lo < 64

/-- The SEC mailbox can be used: the port is up and the root of trust is in service (R502, R574). -/
def State.secUp (s : State) : Prop := s.dev.rd F.CXP_LSTAT_UP = 1 ∧ s.dev.rtp = 1

/-- Session `id` is x: its transport is answered, it is established or not as `est` says, and its next record ends it not
(R515, R516). -/
def State.inSession (s : State) (id : Nat) (x : Sess) (est : Bool) : Prop :=
  s.dev.sessions.find? (fun y => y.id = id) = some x ∧ x.est = est ∧ s.dev.spdmUp x.via = true ∧
    x.rx + 1 < 2 ^ 32 ∧ x.tx + 1 < 2 ^ 32

/-- Session `id` as the state holds it. -/
def State.session (s : State) (id : Nat) : Option Sess := s.dev.sessions.find? fun y => y.id = id

/-! ### A home with nothing in the way -/

/-- No leash limits anything: UNLIM of every leash is 1, its reset value (R409). -/
def Dev.unleashed (d : Dev) : Prop :=
  ∀ i, d.rd F.LSHP_RATE_UNLIM i = 1 ∧ d.rd F.LSHF_RATE_UNLIM i = 1 ∧ d.rd F.LSHS_RATE_UNLIM i = 1

/-- A way of the line's directory set is free (R74). -/
def Dev.wayFree (d : Dev) (v : Variant) (line : Nat) : Prop :=
  ∃ w < 16, tget d.dir ((d.sliceOf v (line * 64) * 8192 + d.setOf (line * 64)) * 16 + w) = none

/-- Nothing is in flight at the homes, nothing is held back, and no channel and no slice is fenced. -/
def State.homeIdle (s : State) : Prop :=
  s.dev.hold = 0 ∧ s.dev.held = [] ∧ s.dev.trackers = [] ∧ s.dev.victims = [] ∧ s.dev.fills = [] ∧ s.dev.conflict = [] ∧
    s.dev.portHeld = [] ∧ s.dev.rd F.RAS_FLMASK_FLASH = 0 ∧ s.dev.rd F.RAS_FMASK_SLICES = 0 ∧ s.dev.unleashed

/-- The line's page is served from DRAM and is not being rebuilt. -/
def State.pageReady (s : State) (line : Nat) : Prop :=
  s.dev.misses (line / 64) = false ∧ s.dev.needsRebuild s.variant (line / 64) = false

/-- The homes are idle, the page of n lines is ready, no copy of them is out, and none is poisoned. -/
def State.homeFree (s : State) (line n : Nat) : Prop :=
  s.homeIdle ∧ s.pageReady line ∧ ∀ i < n, s.dev.ent (line + i) = none ∧ s.dev.poisoned (line + i) = false

/-- Writes need no capture: the module is in no heel group (R369). -/
def State.noCapture (s : State) : Prop := s.dev.inGroup = false

/-- Bytes a to a + length are those of b, and every other byte of the store is as it was in s. -/
def State.stored (t s : State) (a : Nat) (b : Bytes) : Prop :=
  ∀ x, t.dev.byte x = if a ≤ x ∧ x < a + b.length then b.getD (x - a) 0 else s.dev.byte x

/-- The completion and the data response to a fabric request of header h (R458, R459). -/
def State.cmpOf (s : State) (h : Hdr) (status : Nat) : Out :=
  .msg { mtype := 0x30, dst := h.src, src := s.dev.rd F.MAP_NODE_NODE, tag := h.tag, status := status, off := h.off }
def State.dataOf (s : State) (h : Hdr) (status attr : Nat) (payload : Bytes) : Out :=
  .msg { mtype := 0x31, dst := h.src, src := s.dev.rd F.MAP_NODE_NODE, tag := h.tag, status := status, off := h.off,
         attr := attr, payload := payload }

/-- No byte of the store and no poison mark has changed. -/
def State.sameStore (t s : State) : Prop := t.dev.mem = s.dev.mem ∧ t.dev.poison = s.dev.poison

/-! ### Steps of a run -/

/-- Thread `thr` of a bay is t and is about to run a step of `unit` and `op`: it is RUNNING, the step has not issued, every
flag is known, and no register it reads awaits a load (R192, R200, R205). -/
def State.atStep (s : State) (bay thr unit op : Nat) (t : Thread) : Prop :=
  s.dev.thread bay thr = some t ∧ t.state = 1 ∧ t.sel = false ∧ t.wait = 0 ∧ t.unk = 0 ∧
    (s.dev.stepAt t.step).unit = unit ∧ (s.dev.stepAt t.step).op = op ∧ t.blocked (s.dev.stepAt t.step) = false

/-- The thread is u after its step `st`: RUNNING, at the step its flags select (R199). -/
def State.wentOn (s : State) (bay thr : Nat) (st : Step) (u : Thread) : Prop :=
  s.dev.thread bay thr = some u ∧ u.state = 1 ∧ u.sel = false ∧
    u.step = if bit u.flags st.csel != st.cinv then st.nextT else st.nextF

/-- The store, its poison marks, what was sent, and every other thread are as in s. -/
def State.onlyThread (t s : State) (bay thr : Nat) : Prop :=
  t.sameStore s ∧ t.dev.out = s.dev.out ∧ ∀ b u, thrKey b u ≠ thrKey bay thr → t.dev.thread b u = s.dev.thread b u

/-- Vector registers, scratch and pinned windows are as in s. -/
def State.sameRegs (t s : State) : Prop :=
  t.dev.vregs = s.dev.vregs ∧ t.dev.scratch = s.dev.scratch ∧ t.dev.pwin = s.dev.pwin

/-- The four bytes of lane i of vector register v of a thread. -/
def State.lane (s : State) (bay thr v i : Nat) : Nat := leNat (s.dev.vget (thrKey bay thr) v (4 * i) 4)

/-! ### Heels -/

/-- A HEEL message of subtype `sub` to a node, and to every present member (R364, R460). -/
def State.heelTo (s : State) (sub e f cause n : Nat) : Out :=
  .msg { mtype := 0x39, dst := n, src := s.dev.rd F.MAP_NODE_NODE, attr := sub, param := e + 2 ^ 64 * f + 2 ^ 112 * cause }
def State.heelToAll (s : State) (sub e f cause : Nat) : List Out := s.dev.present.map fun n => s.heelTo sub e f cause n

/-- The beacon a module sends to a node (R379). -/
def State.beaconTo (s : State) (n : Nat) : Out :=
  .msg { mtype := 0x38, dst := n, src := s.dev.rd F.MAP_NODE_NODE,
         param := s.dev.rd F.EPC_EPOCH_EPOCH + 2 ^ 64 * s.dev.rd F.EPC_LAST_LAST }

/-- No descriptor, no segment, and no transaction at the homes is in progress, and no line has an owner (R364). -/
def State.drained (s : State) : Prop :=
  s.dev.jobs = [] ∧ s.dev.comb = [] ∧ s.dev.trackers = [] ∧ s.dev.conflict = [] ∧ s.dev.fills = [] ∧ s.dev.held = [] ∧
    ∀ k e, (k, e) ∈ s.dev.dir → e.owned = false

end Sys2Proof.Machine
end

