-- ==== Sys2Proof/Certificates/Slice0/Obligations.lean ====
section
/-! DEFINITION. The statements for the provers. -/
open Sys2Proof Sys2Proof.Machine

/-- For a function whose BAR0 is reached, and a ring it holds that is ACTIVE without QUIESCE: a TAIL doorbell within
the ring and not behind TAIL sets TAIL and records TMR for the descriptors it covers, one equal to TAIL changes
nothing, and one that fails a test leaves FETCH and TAIL and is counted in DB_BAD; RESUME under REPLAY_WAIT with
nothing outstanding sets FETCH = TAIL = T and clears the hold; CHEAD up to CTAIL sets CHEAD and clears COMP_FULL. A
doorbell of a ring that is not ACTIVE, or held by QUIESCE, is only counted in DB_DROP. FHEAD up to FTAIL sets FHEAD. A
fabric DOORBELL from the node of the ring's base acts in the same way and is answered OK, from any other node DENIED.
-/
def Obligations.DoorbellsMoveTheirCounts : Prop :=
  (∀ (s : State) f l r v tee, s.dev.fnUp f = true → s.dev.globalRing f l = some r → s.dev.teeOk f tee = true → v < 2 ^ 32 →
    (s.dev.dbClosed r = true → ∀ i ∈ [Instr.tailDoorbell f l v tee, Instr.resumeDoorbell f l v tee, Instr.cheadDoorbell f l v tee],
      exec i s = .next (s.withDev (s.dev.inc F.RNG_CNT_DB_DROP r))) ∧
    (s.dev.dbClosed r = false → s.dev.rd F.RNG_CTL_PLACE r = 0 →
      (sub32 v (s.dev.rd F.RNG_PTR_FETCH r) ≤ 2 ^ s.dev.rd F.RNG_CTL_SIZE r →
        sub32 v (s.dev.rd F.RNG_PTR_TAIL r) < 2 ^ 31 →
        exec (.tailDoorbell f l v tee) s = .next (if v = s.dev.rd F.RNG_PTR_TAIL r then s else
          s.withDev { s.dev.wr F.RNG_PTR_TAIL r v with
            tdb := tput [] s.dev.tdb r ((tget s.dev.tdb r).getD [] ++ [(v, s.tmr)]) })) ∧
      (2 ^ s.dev.rd F.RNG_CTL_SIZE r < sub32 v (s.dev.rd F.RNG_PTR_FETCH r) ∨
          2 ^ 31 ≤ sub32 v (s.dev.rd F.RNG_PTR_TAIL r) →
        ∃ t, exec (.tailDoorbell f l v tee) s = .next t ∧ t.dev.rd F.RNG_PTR_TAIL r = s.dev.rd F.RNG_PTR_TAIL r ∧
          t.dev.rd F.RNG_PTR_FETCH r = s.dev.rd F.RNG_PTR_FETCH r ∧
          t.dev.rd F.RNG_CNT_DB_BAD r = min (s.dev.rd F.RNG_CNT_DB_BAD r + 1) (2 ^ F.RNG_CNT_DB_BAD.w - 1)) ∧
      (sub32 v (s.dev.rd F.RNG_PTR_FETCH r) ≤ 2 ^ s.dev.rd F.RNG_CTL_SIZE r → s.dev.held? r 1 = true →
        s.dev.rd F.RNG_HOLD_OUTSTANDING r = 0 → ∃ t, exec (.resumeDoorbell f l v tee) s = .next t ∧
          t.dev.rd F.RNG_PTR_FETCH r = v ∧ t.dev.rd F.RNG_PTR_TAIL r = v ∧ t.dev.held? r 1 = false ∧
          (tget t.dev.tdb r).getD [] = [])) ∧
    (s.dev.dbClosed r = false → s.dev.rd F.RNG_CTL_CPLACE r = 0 → v ≠ s.dev.rd F.RNG_CPTR_CHEAD r →
      sub32 v (s.dev.rd F.RNG_CPTR_CHEAD r) ≤ sub32 (s.dev.rd F.RNG_CPTR_CTAIL r) (s.dev.rd F.RNG_CPTR_CHEAD r) →
      ∃ t, exec (.cheadDoorbell f l v tee) s = .next t ∧ t.dev.rd F.RNG_CPTR_CHEAD r = v ∧ t.dev.held? r 2 = false)) ∧
  (∀ (s : State) f v tee, s.dev.fnUp f = true → s.dev.teeOk f tee = true → v < 2 ^ 32 → s.dev.rd F.FN_FRCTL_EN f = 1 →
    s.dev.rd F.FN_STAT_STATE f ≠ 2 → s.dev.rd F.FN_FRCTL_PLACE f = 0 → s.dev.rd F.FN_FROVF_LOST f = 0 →
    sub32 v (s.dev.rd F.FN_FRPTR_FHEAD f) ≤ sub32 (s.dev.rd F.FN_FRPTR_FTAIL f) (s.dev.rd F.FN_FRPTR_FHEAD f) →
    exec (.fheadDoorbell f v tee) s = .next (s.withDev (s.dev.wr F.FN_FRPTR_FHEAD f v))) ∧
  ∀ (s : State) h f l v, f ≤ 512 →
    (∀ r, s.dev.globalRing f l = some r → s.dev.rd F.RNG_CTL_PLACE r = 1 → s.dev.rd F.RNG_DBASE_ADDR r * 4096 / 2 ^ 50 = h.src →
      s.dev.dbClosed r = false → v < 2 ^ 32 → sub32 v (s.dev.rd F.RNG_PTR_FETCH r) ≤ 2 ^ s.dev.rd F.RNG_CTL_SIZE r →
      sub32 v (s.dev.rd F.RNG_PTR_TAIL r) < 2 ^ 31 → ∃ t, exec (.doorbell h f l 0 v) s = .next t ∧
        t.dev.rd F.RNG_PTR_TAIL r = v ∧ t.dev.out = s.dev.out ++ [s.cmpOf h 0]) ∧
    (s.dev.doorbellSource f l 0 h.src = false → ∃ t, exec (.doorbell h f l 0 v) s = .next t ∧
      t.dev.out.getLast? = some (s.cmpOf h 1))

/-- DESCRIPTOR_FETCH of the ring that arbitration grants, ready, with a completion slot and tokens, advances FETCH and
OUTSTANDING and keeps the eight words under their index; a malformed one is ended with FORMAT and the offset of its
first bad field. A failed fetch halts the ring. A descriptor that waits goes to the dispatch queue of the chosen bay,
or its ring holds DISPATCH when no bay is usable. The lowest FREE thread of a usable bay takes the oldest queued
descriptor and stands at its opcode's entry step with S0 to S2 set, no loop counter, no stream and no latch. A
DRAINING thread that owes nothing becomes FREE and its descriptor ends with its result. An expired watchdog is counted
and drains a RUNNING thread. -/
def Obligations.DescriptorsAreFetchedPlacedAndRun : Prop :=
  ∀ s : State,
    (∀ r words d, s.dev.ready r = true → s.dev.slotFree r = true → s.dev.ringTokens r = true → words.length = 8 →
      (∀ w ∈ words, w < 2 ^ 64) → s.dev.grantRing = (d, some r) → ∃ t, exec (.descriptorFetch r words none) s = .next t ∧
        t.dev.rd F.RNG_PTR_FETCH r = (s.dev.rd F.RNG_PTR_FETCH r + 1) % 2 ^ 32 ∧
        ∃ j ∈ t.dev.jobs, j.ring = r ∧ j.idx = s.dev.rd F.RNG_PTR_FETCH r ∧ j.words = words ∧
          ∀ off, formatCheck words = some off → j.place = .ended (formatRes off)) ∧
    (∀ r cause, s.dev.ready r = true → s.dev.slotFree r = true → s.dev.ringTokens r = true → 1 ≤ cause → cause ≤ 4 →
      ∃ t, exec (.fetchFailure r cause) s = .next t ∧ t.dev.rd F.RNG_CTL_STATE r = 2 ∧
        t.dev.rd F.RNG_PTR_FETCH r = s.dev.rd F.RNG_PTR_FETCH r) ∧
    (∀ r i j, s.dev.job r i = some j → j.place = .waiting → opBay (opOf j.words) = true →
      (∀ b, s.dev.chooseBay r = some b → (s.dev.queueOf b).length < 32 → ∃ t, exec (.dispatch r i) s = .next t ∧
        t.dev.job r i = some { j with place := .queued b }) ∧
      (s.dev.chooseBay r = none → exec (.dispatch r i) s = .next (s.withDev (s.dev.setHold r 5 true)))) ∧
    (∀ bay thr j, bay < 32 → thr < 8 → s.dev.thread bay thr = none → (∀ x < thr, (s.dev.thread bay x).isSome = true) →
      s.dev.usable bay = true → (s.dev.queueOf bay).head? = some j → ∃ t u, exec (.threadStart bay thr) s = .next t ∧
        t.dev.thread bay thr = some u ∧ u.ring = j.ring ∧ u.idx = j.idx ∧ u.words = j.words ∧ u.deadline = j.deadline ∧
        u.step = (s.dev.entryOf (opOf j.words)).1 ∧ u.state = 1 ∧ u.lc = [] ∧ u.strms = [] ∧ u.latch = none ∧
        (tget u.sreg 0).getD 0 = j.idx ∧ (tget u.sreg 1).getD 0 = s.dev.ringFn j.ring ∧
        (tget u.sreg 2).getD 0 = s.dev.ringLocal j.ring ∧
        (∀ v < 16, ∀ at_ n, at_ + n ≤ 2048 → t.dev.vget (thrKey bay thr) v at_ n = List.replicate n 0)) ∧
    (∀ bay thr u r, s.dev.thread bay thr = some u → u.state = 3 → u.accs = [] → u.res = some r → u.discard = false →
      u.park = false → ∃ t, exec (.threadFree bay thr) s = .next t ∧ t.dev.thread bay thr = none ∧
        ∀ j ∈ t.dev.jobs, j.ring = u.ring → j.idx = u.idx → j.place = .ended r) ∧
    ∀ bay thr u, s.dev.thread bay thr = some u → u.state = 1 → ∃ t v, exec (.stepWatchdog bay thr) s = .next t ∧
      t.dev.thread bay thr = some v ∧ v.state = 3 ∧
      t.dev.rd F.SHP_WDOG_EXPIRED bay = min (s.dev.rd F.SHP_WDOG_EXPIRED bay + 1) (2 ^ F.SHP_WDOG_EXPIRED.w - 1)

/-- COMPLETION_WRITE of a descriptor that has ended, to a host ring whose interrupts are off, shows bytes 0x08 to 0x1F
of the record at its slot and then the word at 0x00, counts CTAIL and DONE, and the descriptor is gone. IRQ_TIMER
after MAXTIME stops the moderation and raises the vector. Clearing the Mask bit of a pending, otherwise unmasked entry
sends it. A failed completion write halts the ring and drops the descriptor without a record; a failed fault-ring
write clears FN_FRCTL.EN, and of PF0's own ring the sideband's queue takes the record. -/
def Obligations.CompletionsAndInterruptsAreWritten : Prop :=
  ∀ s : State,
    (∀ r i j x, s.dev.job r i = some j → j.ring = r → j.place = .ended x → opOf j.words ≠ 0x31 → tget s.dev.cplLost r = none →
      s.dev.rd F.RNG_CTL_CPLACE r = 0 → s.dev.ringFn r ∉ s.dev.hostDisc → s.dev.rd F.RNG_IRQ_EN r = 0 →
      ∃ t ws, exec (.completionWrite r i) s = .next t ∧
        ws = complWords j x ((s.dev.rd F.RNG_CPTR_CTAIL r / 2 ^ s.dev.rd F.RNG_CTL_CSIZE r + 1) % 2) s.tmr ∧
        t.dev.out = s.dev.out ++
          [.hostWrite (s.dev.ringFn r) (s.dev.complAddr r (s.dev.rd F.RNG_CPTR_CTAIL r) + 8) (ws.drop 1)
            (s.dev.rd F.SEC_TDI_STATE (s.dev.ringFn r) == 2),
           .hostWrite (s.dev.ringFn r) (s.dev.complAddr r (s.dev.rd F.RNG_CPTR_CTAIL r)) (ws.take 1)
            (s.dev.rd F.SEC_TDI_STATE (s.dev.ringFn r) == 2)] ∧
        t.dev.rd F.RNG_CPTR_CTAIL r = (s.dev.rd F.RNG_CPTR_CTAIL r + 1) % 2 ^ 32 ∧
        t.dev.rd F.RNG_HOLD_OUTSTANDING r = s.dev.rd F.RNG_HOLD_OUTSTANDING r - 1 ∧
        ∀ k ∈ t.dev.jobs, ¬(k.ring = r ∧ k.idx = j.idx)) ∧
    (∀ r at_, tget s.dev.irqT r = some at_ → s.dev.rd F.RNG_IRQ_MAXTIME r ≠ 0 → s.dev.rd F.RNG_IRQ_EN r = 1 →
      (at_ + 100 * s.dev.rd F.RNG_IRQ_MAXTIME r ≤ s.tmr →
        exec (.irqTimer r) s = .next (s.withDev (s.dev.ringIrq r)) ∧ tget (s.dev.ringIrq r).irqT r = none) ∧
      (s.tmr < at_ + 100 * s.dev.rd F.RNG_IRQ_MAXTIME r → exec (.irqTimer r) s = .next s)) ∧
    (∀ f v, s.dev.fnUp f = true → v < s.dev.rd F.FN_VEC_COUNT f → (64 * f + v) ∈ s.dev.pba →
      s.dev.bitAt F.FN_IRQF_FABRIC f v = false → bit ((tget s.dev.msixCtl f).getD 0) 0 = true →
      bit ((tget s.dev.msixCtl f).getD 0) 1 = false → ∃ t, exec (.msixUnmask f v) s = .next t ∧
        bit (t.dev.msixWord f v 3) 0 = false ∧ (64 * f + v) ∉ t.dev.pba ∧ t.dev.out = s.dev.out ++
          [.msix f v (s.dev.msixWord f v 0 + 2 ^ 32 * s.dev.msixWord f v 1) (s.dev.msixWord f v 2)
            (s.dev.rd F.SEC_TDI_STATE f = 2)]) ∧
    (∀ r i j x cause, s.dev.job r i = some j → j.ring = r → j.idx = i → j.place = .ended x → tget s.dev.cplLost r = none →
      1 ≤ cause → cause ≤ 4 → ∃ t, exec (.completionWriteFailure r i cause) s = .next t ∧ t.dev.rd F.RNG_CTL_STATE r = 2 ∧
        t.dev.rd F.RNG_CPTR_CTAIL r = s.dev.rd F.RNG_CPTR_CTAIL r ∧
        tget t.dev.cplLost r = some (i, s.dev.rd F.RNG_HOLD_OUTSTANDING r) ∧ ∀ k ∈ t.dev.jobs, ¬(k.ring = r ∧ k.idx = i)) ∧
    ∀ f cause, f ≤ 512 → s.dev.rd F.FN_FRCTL_EN f = 1 → s.dev.rd F.FN_FRPTR_FTAIL f ≠ 0 → 1 ≤ cause → cause ≤ 4 →
      ∃ t, exec (.faultRingWriteFailure f cause) s = .next t ∧ t.dev.rd F.FN_FRCTL_EN f = 0 ∧
        (f = 0 → s.dev.sideQ.length < 64 → t.dev.sideQ.length = s.dev.sideQ.length + 1)

/-- A free walker starts the one waiting demand walk whose page the shared cache lacks, and counts it. A stale walk
that ends waits to start again; any other is served what the tables give. With no combining segment, an XLATE_INVAL
that may start leaves no cached translation it names in either cache, marks every walk of TARGET in flight stale,
steps XLT_GEN and is in progress; one that R140 refuses ends DENIED. XLATE_INVAL_DRAIN_END completes it exactly when
no access of the old generation is left. WINDOW takes an OPEN window to CLOSING and ends OK at once for any other; the
window becomes FREE, and the descriptor ends OK, once nothing is in flight on it and, here with an empty directory, no
copy is out. -/
def Obligations.TranslationsAreWalkedAndInvalidated : Prop :=
  ∀ s : State,
    (∀ g w d, s.dev.walks = [w] → w.started = false → w.demand = true → s.dev.walkGroup w = g →
      s.dev.bitAt F.RAS_FMASK_WALKERS 0 g = false →
      { s.dev with walkTurn := tset s.dev.walkTurn g w.strm }.lookupShr w.collar (w.page * 4096) = (d, none) →
      ∃ t, exec (.walkStart g) s = .next t ∧ t.dev.walks = [{ w with started := true }] ∧
        t.dev.rd F.XLT_MISS_WALK = min (s.dev.rd F.XLT_MISS_WALK + 1) (2 ^ F.XLT_MISS_WALK.w - 1)) ∧
    (∀ col page env w, s.dev.walks.find? (fun x => x.isOf col page && x.started) = some w →
      (w.stale = true → exec (.walkComplete col page env) s = .next (s.withDev { s.dev with
        walks := mapIf (fun x => x.isOf col page) (fun x => { x with started := false, stale := false }) s.dev.walks })) ∧
      (∀ res r, w.stale = false → (endWalk s.cx w).run { d := s.dev, env := env } = (res, r) → r.busy = false →
        exec (.walkComplete col page env) s = .next (s.withDev
          ({ r.d with walks := r.d.walks.filter fun x => !x.isOf col page }.serveWaiters s.cx w res)))) ∧
    (∀ ring idx env j, s.dev.comb = [] →
      (s.dev.invalStart ring idx 0 = some (j, false) → ∃ t, exec (.xlateInvalRange ring idx env) s = .next t ∧
        t.dev.inval = some ⟨ring, idx, bits (j.words.getD 2 0) 12 10⟩ ∧
        t.dev.rd F.XLT_GEN_GEN = (s.dev.rd F.XLT_GEN_GEN + 1) % 2 ^ F.XLT_GEN_GEN.w ∧
        (∀ x ∈ t.dev.bayTlb ++ t.dev.shrTlb, ∀ e ∈ x.2, e.collar = bits (j.words.getD 2 0) 12 10 →
          (e.p + 1) * 2 ^ e.s ≤ j.words.getD 3 0 ∨
            j.words.getD 3 0 + bits (j.words.getD 4 0) 0 32 * 4096 ≤ e.p * 2 ^ e.s)) ∧
      (s.dev.invalStart ring idx 1 = some (j, false) → ∃ t, exec (.xlateInvalFunction ring idx env) s = .next t ∧
        t.dev.inval = some ⟨ring, idx, bits (j.words.getD 2 0) 12 10⟩ ∧
        (∀ x ∈ t.dev.bayTlb ++ t.dev.shrTlb, ∀ e ∈ x.2, e.collar ≠ bits (j.words.getD 2 0) 12 10) ∧
        ∀ w ∈ t.dev.walks, w.collar = bits (j.words.getD 2 0) 12 10 → w.started = true → w.stale = true) ∧
      (s.dev.invalStart ring idx 1 = some (j, true) → ∃ t, exec (.xlateInvalFunction ring idx env) s = .next t ∧
        t.dev.inval = s.dev.inval ∧ t.dev.bayTlb = s.dev.bayTlb ∧
        ∀ k ∈ t.dev.jobs, k.ring = ring → k.idx = idx → k.place = .ended { status := 0x12 })) ∧
    (∀ v, s.dev.inval = some v → exec .xlateInvalDrainEnd s = .next (if s.dev.oldCount = 0 then
      s.withDev ({ s.dev with inval := none }.endJob v.ring v.idx { status := 0 }) else s)) ∧
    (∀ ring idx j, s.dev.invalStart ring idx 2 = some (j, false) → ∃ t, exec (.xlateInvalWindow ring idx) s = .next t ∧
      (if s.dev.rd F.XLT_WCTL_ST (j.words.getD 5 0 % 8192) = 1 then
        t.dev.rd F.XLT_WCTL_ST (j.words.getD 5 0 % 8192) = 2 ∧
          t.dev.closing = s.dev.closing ++ [(j.words.getD 5 0 % 8192, ring, idx)]
      else t.dev.closing = s.dev.closing ∧ ∀ k ∈ t.dev.jobs, k.ring = ring → k.idx = idx → k.place = .ended { status := 0 })) ∧
    ∀ w env x, s.dev.closing.find? (fun y => y.1 = w) = some x →
      (s.dev.rd F.XLT_WINFLT_COUNT w ≠ 0 → exec (.windowCloseDrainEnd w env) s = .next s) ∧
      (s.dev.rd F.XLT_WINFLT_COUNT w = 0 → s.dev.dir = [] → ∃ t, exec (.windowCloseDrainEnd w env) s = .next t ∧
        t.dev.rd F.XLT_WCTL_ST w = 0 ∧ (∀ y ∈ t.dev.closing, y.1 ≠ w) ∧
        ∀ k ∈ t.dev.jobs, k.ring = x.2.1 → k.idx = x.2.2 → k.place = .ended { status := 0 })

/-- A HEEL that waits ends DENIED from a function that may not post it, and OK with ALREADY for an epoch that has
ended; else a module in no group asks for a local heel, and the leader of a group notes that one is asked for. A FENCE
holds its own ring, or every ring of its function, until it completes; without FLUSH it completes OK once every
earlier descriptor of its scope has, and its ring goes on when no other FENCE is left. A MARK ends OK at once. -/
def Obligations.ControlDescriptorsActAtTheRingManager : Prop :=
  ∀ (s : State) r i j,
    (s.dev.waitingJob r i 0x30 = some j →
      (s.dev.ringFn r ≠ 0 → s.dev.ringFn r ≠ s.dev.rd F.EPC_CFG_HEELFN →
        exec (.heel r i) s = .next (s.withDev (s.dev.endJob r i { status := 0x12 }))) ∧
      (s.dev.ringFn r = 0 → bits (j.words.getD 2 0) 0 48 ≠ 0 → bits (j.words.getD 2 0) 0 48 < s.dev.rd F.EPC_EPOCH_EPOCH →
        exec (.heel r i) s = .next (s.withDev (s.dev.endJob r i { status := 0, ra := 1 }))) ∧
      (s.dev.ringFn r = 0 → s.dev.inGroup = false → ∃ t, exec (.heel r i) s = .next t ∧ .heel ∈ t.dev.wanted ∧
        t.dev.job r i = some { j with place := .control }) ∧
      (s.dev.ringFn r = 0 → s.dev.inGroup = true → bits (j.words.getD 2 0) 0 48 = s.dev.rd F.EPC_EPOCH_EPOCH →
        s.dev.rd F.EPC_STAT_LEADER = 1 → s.dev.heelLead = none → ∃ t, exec (.heel r i) s = .next t ∧
          t.dev.heelAsked = true ∧ t.dev.job r i = some { j with place := .control })) ∧
    (∀ env, s.dev.waitingJob r i 0x31 = some j → j.ring = r → bit (j.words.getD 2 0) 2 = false →
      ∃ t, exec (.fence r i env) s = .next t ∧ t.dev.job r i = some { j with place := .control } ∧
        ∀ x ∈ s.dev.fenceRings j, x < 4096 → t.dev.held? x 3 = true) ∧
    (∀ env, s.dev.job r i = some j → j.ring = r → j.place = .control → opOf j.words = 0x31 → s.dev.fenceDone j = true →
      bit (j.words.getD 2 0) 2 = false → ∃ t, exec (.fenceComplete r i env) s = .next t ∧
        t.dev.job r i = some { j with place := .ended { status := 0 } } ∧
        ((∀ k ∈ s.dev.jobs, opOf k.words = 0x31 → k.ring = r ∧ k.idx = i) → ∀ x ∈ s.dev.fenceRings j,
          t.dev.held? x 3 = false)) ∧
    (s.dev.waitingJob r i 0x32 = some j → exec (.mark r i) s = .next (s.withDev (s.dev.endJob r i { status := 0 })))

/-- ACCESS_RESPONSE for an access of a thread that is not DRAINING takes the home's answer and ends that access alone.
Data of status OK, for a vector register, is then what the register holds at the access's place; a POISON status fills
an empty fault latch with POISONED and the address; a latch that is filled stays. -/
def Obligations.ResponsesReachTheirAccess : Prop :=
  ∀ (s : State) bay thr acc t a d x, s.dev.thread bay thr = some t → t.state ≠ 3 →
    s.dev.takeAnswer bay thr acc = some (d, a) → t.accs.find? (fun y => y.id = acc) = some x →
    ∃ s' u, exec (.accessResponse bay thr acc none) s = .next s' ∧ s'.dev.thread bay thr = some u ∧
      u.accs = t.accs.filter (fun y => y.id ≠ acc) ∧ s'.dev.answers = s.dev.answers.filter (· ≠ a) ∧ s'.dev.mem = s.dev.mem ∧
      (a.status = 0 → a.data ≠ [] → t.discard = false → x.kind = 0 → kindOf x.dst = 1 → idxOf x.dst < 16 →
        x.at_ + x.len ≤ 2048 →
        s'.dev.vget (thrKey bay thr) (idxOf x.dst) x.at_ x.len = takeBytes x.len (a.data.drop (x.out % 64))) ∧
      (a.status = 3 → t.latch = none → ∃ l, u.latch = some l ∧ l.status = 0x14 ∧ l.type = 0x02 ∧ l.step = x.step) ∧
      (t.latch.isSome = true → u.latch = t.latch)

/-- A request that passes the checks of the ingress, of lines without a copy outside and not poisoned, at an idle home
whose page is in DRAM, completes at once: RD_ONCE answers DATA with 1 to 4 lines (those of its granule) and changes no
directory entry; RD_SHARED answers the line with grant SHARED and the entry names the requester as a sharer; RD_OWN,
and UPGRADE of a copy that is gone, answer the line with grant OWNED and the entry names the requester as owner.
UPGRADE by the only sharer is granted without data, by a completion (the model's reading). None of them changes the
store. -/
def Obligations.FabricReadsAnswerWithTheLinesAndTheGrant : Prop :=
  ∀ (s : State) (h : Hdr) (d : Dev) (e : Entered),
    (∀ k, s.dev.ingress h needRead false false = (d, some e) → s.homeFree (e.off / 64) (linesIn e.off k) →
      ∃ t, exec (.rdOnce h k none) s = .next t ∧ t.sameStore s ∧ t.dev.dir = s.dev.dir ∧
        t.dev.out = s.dev.out ++ [s.dataOf h 0 (4 * (linesIn e.off k - 1)) (s.dev.bytes (e.off / 64 * 64) (64 * linesIn e.off k))]) ∧
    (s.dev.ingress h needRead false true = (d, some e) → s.homeFree (e.off / 64) 1 → s.dev.wayFree s.variant (e.off / 64) →
      ∃ t k n, exec (.rdShared h none) s = .next t ∧ t.sameStore s ∧ t.dev.ent (e.off / 64) = some (k, n) ∧
        n.owned = false ∧ n.ptrs = [.node h.src] ∧
        t.dev.out = s.dev.out ++ [s.dataOf h 0 1 (s.dev.bytes (e.off / 64 * 64) 64)]) ∧
    (s.dev.ingress h ⟨true, true, false⟩ false true = (d, some e) → s.homeFree (e.off / 64) 1 →
      s.dev.wayFree s.variant (e.off / 64) → ∀ i ∈ [Instr.rdOwn h none, Instr.upgrade h none],
      ∃ t k n, exec i s = .next t ∧ t.sameStore s ∧ t.dev.ent (e.off / 64) = some (k, n) ∧ n.owned = true ∧
        n.ptrs = [.node h.src] ∧
        t.dev.out = s.dev.out ++ [s.dataOf h 0 2 (s.dev.bytes (e.off / 64 * 64) 64)]) ∧
    ∀ k n, s.dev.ingress h ⟨true, true, false⟩ false true = (d, some e) → s.homeIdle → s.pageReady (e.off / 64) →
      s.dev.poisoned (e.off / 64) = false → s.dev.ent (e.off / 64) = some (k, n) → n.line = e.off / 64 → n.owned = false →
      n.ovf = false → n.ptrs = [.node h.src] →
      ∃ t m, exec (.upgrade h none) s = .next t ∧ t.sameStore s ∧ tget t.dev.dir k = some m ∧ m.owned = true ∧
        m.ptrs = [.node h.src] ∧
        t.dev.out = s.dev.out ++ [s.cmpOf h 0]

/-- A write that passes the checks of the ingress, at an idle home, on a page in DRAM of a module in no heel group,
completes at once with CMP of status OK: WR_LINE stores its 1 to 4 lines, MC_BLOCK and MC_ZERO the lines of a granule,
WR_MASK the bytes its mask selects, and no other byte of the store changes. WB by the owner stores the line and frees
its entry; WB by another node is answered DENIED and changes no byte. -/
def Obligations.FabricWritesStoreExactlyTheirBytes : Prop :=
  ∀ (s : State) (h : Hdr) (d : Dev) (e : Entered), s.noCapture →
    (s.dev.ingress h needWrite false false = (d, some e) →
      (∀ k data, k ≤ 4 → s.homeFree (e.off / 64) (linesIn e.off k) → ∃ t, exec (.wrLine h k data none) s = .next t ∧
        t.stored s (e.off / 64 * 64) (takeBytes (64 * linesIn e.off k) data) ∧
        t.dev.out = s.dev.out ++ [s.cmpOf h 0]) ∧
      (s.homeFree (e.off / 64) (linesIn e.off 4) →
        (∀ data, ∃ t, exec (.mcBlock h data none) s = .next t ∧
          t.stored s (e.off / 64 * 64) (takeBytes (64 * linesIn e.off 4) data)) ∧
        ∃ t, exec (.mcZero h) s = .next t ∧ t.stored s (e.off / 64 * 64) (List.replicate (64 * linesIn e.off 4) 0)) ∧
      ∀ mask data, s.homeFree (e.off / 64) 1 → ∃ t, exec (.wrMask h mask data none) s = .next t ∧
        (∀ x, t.dev.byte x = if e.off / 64 * 64 ≤ x ∧ x < e.off / 64 * 64 + 64 ∧ bit mask (x - e.off / 64 * 64) = true then
          data.getD (x - e.off / 64 * 64) 0 else s.dev.byte x) ∧
        t.dev.out = s.dev.out ++ [s.cmpOf h 0]) ∧
    (∀ data d0 r, s.dev.hold = 0 → s.dev.resolve h ⟨false, false, false⟩ true = (d0, some r) →
      (s.dev.owns (.node h.src) (r.1 / 64) = true →
        s.dev.ingress h ⟨false, false, false⟩ true false = (d, some e) → ∃ t, exec (.wb h data none) s = .next t ∧
          t.stored s (e.off / 64 * 64) (takeBytes 64 data) ∧
          t.dev.out = s.dev.out ++
            [s.cmpOf h 0]) ∧
      (s.dev.owns (.node h.src) (r.1 / 64) = false →
        s.dev.ingress h ⟨false, false, false⟩ false false = (d, some e) → ∃ t, exec (.wb h data none) s = .next t ∧
          t.sameStore s ∧ t.dev.out = s.dev.out ++ [s.cmpOf h 1]))

/-- An atomic that passes the ingress, with an operation its element type allows and a naturally aligned address, at
an idle home on a page in DRAM of a module in no heel group: the operand's bytes become the operation's result and no
other byte of the store changes; with fetch the old value is answered, else a completion. A malformed one is answered
FORMAT and changes no byte. ZERO_MARK does the whole-line operation with operand 0 on each of the four lines of its
block. -/
def Obligations.FabricAtomicsAreDoneAtTheHome : Prop :=
  ∀ (s : State) (h : Hdr) (d : Dev) (e : Entered) (aop ety : Nat),
    (∀ fetch whole slot, s.dev.ingress h (needAtomic fetch) false false = (d, some e) →
      (s.noCapture → s.homeFree (e.off / 64) 1 → aopValid aop ety whole = true →
        h.off % (if whole then 64 else (etyBytes ety).getD 4) = 0 →
        e.off % (if whole then 64 else (etyBytes ety).getD 4) = 0 →
        ∃ t, exec (.atomic h aop ety fetch whole slot none) s = .next t ∧
          t.stored s e.off (aopBytes aop ety (s.dev.bytes e.off (if whole then 64 else (etyBytes ety).getD 4))
            (atomSlot h.off aop (if whole then 64 else (etyBytes ety).getD 4) whole slot).1
            (takeBytes (if whole then 64 else (etyBytes ety).getD 4)
              (atomSlot h.off aop (if whole then 64 else (etyBytes ety).getD 4) whole slot).2)) ∧
          t.dev.out = s.dev.out ++ [if fetch then s.dataOf h 0 0 (s.dev.bytes e.off (if whole then 64 else (etyBytes ety).getD 4))
            else s.cmpOf h 0]) ∧
      (aopValid aop ety whole = false → ∃ t, exec (.atomic h aop ety fetch whole slot none) s = .next t ∧ t.sameStore s ∧
        t.dev.out = s.dev.out ++ [s.cmpOf h 4])) ∧
    (s.dev.ingress h (needAtomic false) false false = (d, some e) → s.noCapture → s.homeFree (e.off / 64) 4 →
      aopValid aop ety true = true → h.off % 256 = 0 → e.off % 256 = 0 →
      ∃ t, exec (.zeroMark h aop ety) s = .next t ∧
        (∀ i < 4, t.dev.bytes (e.off + 64 * i) 64 =
          aopBytes aop ety (s.dev.bytes (e.off + 64 * i) 64) (List.replicate 64 0) (List.replicate 64 0)) ∧
        (∀ x, (x < e.off ∨ e.off + 256 ≤ x) → t.dev.byte x = s.dev.byte x) ∧
        t.dev.out = s.dev.out ++ [s.cmpOf h 0])

/-- A request of a host that passes the port's checks, on a line without a copy outside and not poisoned, at an idle
home whose page is in DRAM: MemRd with MetaValue I and MemRdData answer the line uncached; MetaValue S answers it with
Cmp-S and the host is a sharer; A answers it with Cmp-E and the host owns it; MemInv answers Cmp-E alone and the host
owns it. MemWr stores the line and MemWrPtl the bytes of its mask, each answered Cmp; with the Poison bit the line
takes the poison marker. MemClnEvct is answered and changes nothing. A rejected read is answered with poison, a
rejected write with Cmp, and neither changes the store. DevLoad is Light, nothing else being in execution. -/
def Obligations.HostRequestsActAsR85Says : Prop :=
  ∀ (s : State) (pbr tag hpa : Nat), s.dev.hostReady = true →
    (∀ (d : Dev) (x : HostIn), s.dev.hostCheck pbr hpa = (d, some x) → s.homeFree (x.at_.off / 64) 1 →
      (∀ i ∈ [Instr.memrd pbr tag hpa .i none, Instr.memrddata pbr tag hpa none], ∃ t, exec i s = .next t ∧ t.sameStore s ∧
        t.dev.dir = s.dev.dir ∧ t.dev.out = s.dev.out ++
          [.cxlData (s.dev.rd F.CXP_SPID_PBRID x.spid) tag 0 0 false (s.dev.bytes (x.at_.off / 64 * 64) 64)]) ∧
      (s.dev.wayFree s.variant (x.at_.off / 64) →
        (∃ t k n, exec (.memrd pbr tag hpa .s none) s = .next t ∧ t.sameStore s ∧
          t.dev.ent (x.at_.off / 64) = some (k, n) ∧ n.owned = false ∧ n.ptrs = [.spid x.spid] ∧ t.dev.out = s.dev.out ++
            [.cxlData (s.dev.rd F.CXP_SPID_PBRID x.spid) tag 1 0 false (s.dev.bytes (x.at_.off / 64 * 64) 64)]) ∧
        (∃ t k n, exec (.memrd pbr tag hpa .a none) s = .next t ∧ t.sameStore s ∧
          t.dev.ent (x.at_.off / 64) = some (k, n) ∧ n.owned = true ∧ n.ptrs = [.spid x.spid] ∧ t.dev.out = s.dev.out ++
            [.cxlData (s.dev.rd F.CXP_SPID_PBRID x.spid) tag 2 0 false (s.dev.bytes (x.at_.off / 64 * 64) 64)]) ∧
        ∃ t k n, exec (.meminv pbr tag hpa none) s = .next t ∧ t.sameStore s ∧ t.dev.ent (x.at_.off / 64) = some (k, n) ∧
          n.owned = true ∧ n.ptrs = [.spid x.spid] ∧
          t.dev.out = s.dev.out ++ [.cxlCmp (s.dev.rd F.CXP_SPID_PBRID x.spid) tag 2 0]) ∧
      (s.noCapture → ∀ data,
        (∃ t, exec (.memwr pbr tag hpa data false none) s = .next t ∧
          t.stored s (x.at_.off / 64 * 64) (takeBytes 64 data) ∧
          t.dev.out = s.dev.out ++ [.cxlCmp (s.dev.rd F.CXP_SPID_PBRID x.spid) tag 0 0]) ∧
        (∃ t, exec (.memwr pbr tag hpa data true none) s = .next t ∧ t.dev.poisoned (x.at_.off / 64) = true ∧
          t.stored s (x.at_.off / 64 * 64) (List.replicate 64 0)) ∧
        ∀ mask, ∃ t, exec (.memwrptl pbr tag hpa mask data false none) s = .next t ∧
          (∀ a, t.dev.byte a = if x.at_.off / 64 * 64 ≤ a ∧ a < x.at_.off / 64 * 64 + 64 ∧
              bit mask (a - x.at_.off / 64 * 64) = true then data.getD (a - x.at_.off / 64 * 64) 0 else s.dev.byte a) ∧
          t.dev.out = s.dev.out ++ [.cxlCmp (s.dev.rd F.CXP_SPID_PBRID x.spid) tag 0 0]) ∧
      ∃ t, exec (.memclnevct pbr tag hpa) s = .next t ∧ t.sameStore s ∧ t.dev.dir = s.dev.dir ∧
        t.dev.out = s.dev.out ++ [.cxlCmp (s.dev.rd F.CXP_SPID_PBRID x.spid) tag 0 0]) ∧
    ∀ d, s.dev.hostCheck pbr hpa = (d, none) →
      (∀ i ∈ [Instr.memrd pbr tag hpa .a none, Instr.memrddata pbr tag hpa none],
        exec i s = .next (s.withDev (d.hostPoison pbr tag))) ∧
      (∀ data mask, ∀ i ∈ [Instr.meminv pbr tag hpa none, Instr.memwr pbr tag hpa data false none,
          Instr.memwrptl pbr tag hpa mask data false none, Instr.memclnevct pbr tag hpa],
        exec i s = .next (s.withDev (d.hostDrop pbr tag))) ∧ d.mem = s.dev.mem ∧ d.poison = s.dev.poison

/-- CXL_LINK_UP under the conditions of the port sets CXP_LSTAT and makes MODE take effect. A loss of the link takes
it down, counts it, ends the IDE keys and VF Enable and declares every VALID SPID failed, by CXL_LINK_LOSS, by PERST#
on a trained port, and by an integrity failure of the CXL.cachemem stream alike: all three run one operation. PERST#
released only lets the port train. An integrity failure of a selective stream clears its Secure bit. A PCIe
function-level reset of an ENABLED VF asks for its quiesce without HOST records; clearing VF Enable with no VF enabled
only clears it. -/
def Obligations.PortEventsFollowR420AndR437 : Prop :=
  (∀ (s : State) width rate cxl lopt, s.dev.pwrgd = true → s.dev.perst = false → s.dev.domState 109 = 1 →
    s.dev.lostFor = 0 → s.dev.rd F.CXP_LSTAT_UP = 0 → s.dev.resetTr = none → width ∈ [1, 2, 4, 8] → 1 ≤ rate → rate ≤ 6 →
    (cxl = true → 3 ≤ rate) →
    ∃ t, exec (.cxlLinkUp width rate cxl lopt) s = .next t ∧ t.dev.rd F.CXP_LSTAT_UP = 1 ∧
      t.dev.rd F.CXP_LSTAT_WIDTH = width ∧ t.dev.rd F.CXP_LSTAT_RATE = rate ∧
      t.dev.rd F.CXP_LSTAT_CXL = (if cxl then 1 else 0) ∧ t.dev.cxlMode = s.dev.rd F.CXP_CFG_MODE) ∧
  (∀ s : State, s.dev.rd F.CXP_LSTAT_UP = 1 → (∀ r ∈ s.dev.running, r.tr.prio ≠ 1) →
    exec .cxlLinkLoss s = .next (s.withDev (s.dev.linkLoss s.cx)) ∧
    exec .perstAssert s = .next (s.withDev ({ s.dev with perst := true }.linkLoss s.cx)) ∧
    (s.dev.rd F.CXP_LSTAT_IDE_CM = 1 →
      exec (.ideIntegrityFailure 4) s = .next (s.withDev (s.dev.linkLoss s.cx)))) ∧
  (∀ (d : Dev) (c : Cx), d.instances F.CXP_SPID_VALID = [] → d.instances F.SEC_TDI_STATE = [] →
    (∀ f, d.rd F.FN_STAT_STATE f = 0) → d.rd F.CXP_LSTAT_DOWNS < 2 ^ F.CXP_LSTAT_DOWNS.w - 1 →
    (d.linkLoss c).rd F.CXP_LSTAT_UP = 0 ∧ (d.linkLoss c).rd F.CXP_LSTAT_DOWNS = d.rd F.CXP_LSTAT_DOWNS + 1 ∧
      (d.linkLoss c).vfEnable = false ∧ (d.linkLoss c).ideKeys = [] ∧ (d.linkLoss c).ideGo = []) ∧
  (∀ s : State, exec .perstRelease s = .next (s.withDev { s.dev with perst := false })) ∧
  (∀ (s : State) stream, stream < 4 → s.dev.instances F.SEC_TDI_STATE = [] →
    bit (s.dev.rd F.CXP_LSTAT_IDE_IO) stream = true → ∃ t, exec (.ideIntegrityFailure stream) s = .next t ∧
      t.dev.rd F.CXP_LSTAT_IDE_IO = s.dev.rd F.CXP_LSTAT_IDE_IO - 2 ^ stream ∧ ∀ k ∈ t.dev.ideGo, k / 4 ≠ stream) ∧
  (∀ (s : State) f, 1 ≤ f → s.dev.fnUp f = true → s.dev.rd F.FN_STAT_STATE f = 1 → s.dev.tdiLocked f = false →
    s.dev.quiescing f = false → ∃ t, exec (.pcieFlr f) s = .next t ∧ .quiesce f ∈ t.dev.wanted ∧ f ∈ t.dev.hostDisc ∧
      t.dev.rd F.FN_STAT_HOSTDISC f = 1) ∧
  ∀ s : State, s.dev.pf0Up = true → s.dev.vfEnable = true → (∀ f, s.dev.rd F.FN_STAT_STATE f ≠ 1) →
    exec .vfEnableClear s = .next (s.withDev { s.dev with vfEnable := false })

/-- While the link is up (codes and layouts presumed from CXL): Get Event Records answers up to 31 records of the DC
log and none of the others; Clear Event Records empties the DC log or drops the oldest named; the interrupt policy is
stored and answered; Get FW Info answers the running build; Set Timestamp sets the CXL clock without touching TMR and
Get Timestamp reads it; Get Supported Logs, Get Log (effects free values), Identify Memory Device (no capacity of its
own), and the CDAT of the regions answer; an opcode the table does not name is Unsupported. -/
def Obligations.CciMailboxCommandsAnswer : Prop :=
  ∀ s : State, s.dev.rd F.CXP_LSTAT_UP = 1 →
    exec (.getEventRecords 4) s = .next (s.shows (.mailbox mbxOk ([if s.dev.dcOvf then 1 else 0,
      s.dev.rd F.CXP_DCSTAT_EVLOST, if (s.dev.dcLog.take 31).length < s.dev.dcLog.length then 1 else 0,
      (s.dev.dcLog.take 31).length] ++ (s.dev.dcLog.take 31).flatMap DcEvent.words))) ∧
    (∀ log < 4, exec (.getEventRecords log) s = .next (s.shows (.mailbox mbxOk [0, s.dev.rd F.CXP_DCSTAT_EVLOST, 0, 0]))) ∧
    (∀ hs, exec (.clearEventRecords 4 true hs) s =
      .next ((s.withDev { s.dev with dcLog := [], dcOvf := false }).shows (.mailbox mbxOk []))) ∧
    (∀ hs, (s.dev.dcLog.take hs.length).map (fun e => e.handle) = hs → exec (.clearEventRecords 4 false hs) s =
      .next ((s.withDev { s.dev with dcLog := s.dev.dcLog.drop hs.length }).shows (.mailbox mbxOk []))) ∧
    exec .getEventInterruptPolicy s = .next (s.shows (.mailbox mbxOk s.dev.evPolicy)) ∧
    (∀ l, ∃ t, exec (.setEventInterruptPolicy l) s = .next t ∧ t.dev.evPolicy.length = 5 ∧
      (∀ i < 5, t.dev.evPolicy.getD i 0 = l.getD i 0 % 256) ∧ t.dev.out = s.dev.out ++ [.mailbox mbxOk []]) ∧
    exec .getFwInfo s = .next (s.shows (.mailbox mbxOk [1, 1, s.dev.rd F.SEC_FWSTAT_VERSION])) ∧
    exec .getTimestamp s = .next (s.shows (.mailbox mbxOk [match s.dev.cxlTime with
      | some (v, at_) => v + (s.tmr - at_) * 10
      | none => 0])) ∧
    (∀ ns, exec (.setTimestamp ns) s =
      .next ((s.withDev { s.dev with cxlTime := some (ns % 2 ^ 64, s.tmr) }).shows (.mailbox mbxOk []))) ∧
    exec .getSupportedLogs s = .next (s.shows (.mailbox mbxOk [1, 4 * mbxOpcodes.length])) ∧
    (∃ t, exec (.getLog true) s = .next t ∧ t.dev.fresh = s.dev.fresh + mbxOpcodes.length ∧
      t.dev.out = s.dev.out ++ [.mailbox mbxOk (mbxOpcodes.mapIdx fun i op =>
        op + 2 ^ 16 * (Config.freeValue (s.dev.fresh + i) % 2 ^ 16))]) ∧
    exec .identifyMemoryDevice s = .next (s.shows (.mailbox mbxOk [0, 0, 0, 0])) ∧
    (∀ op, op ∉ mbxOpcodes → exec (.mailboxUnsupported op) s = .next (s.shows (.mailbox mbxUnsupported []))) ∧
    exec .tableAccess s = .next ((s.withDev { s.dev with fresh := s.dev.fresh + 1 }).shows (.cdat (s.dev.dcRegions.flatMap
      fun r => [[0, r, s.dev.rd F.CXP_DCREG_BASE r * 2 ^ 30, s.dev.rd F.CXP_DCREG_SIZE r * 2 ^ 30], [1, r, 1, 600],
        [1, r, 2, Config.freeValue s.dev.fresh % 2 ^ 16], [1, r, 4, s.dev.rawMbps * 94 / 100],
        [1, r, 5, s.dev.rawMbps * 94 / 100], [4, r, 1]])))

/-- While the link is up: Get Dynamic Capacity Configuration answers the regions present; Get Extent List answers the
extents from the first asked for, their total and the generation; Add Dynamic Capacity Response marks every offered
extent it names accepted and every other declined, counts the declined and shows nothing but proposals and its
completion; Release Dynamic Capacity changes no extent. A commit of a free HDM decoder with supported settings appends
it, its DPA following the last one's; an unsupported one sets its error, and one already committed stays as it is. -/
def Obligations.DynamicCapacityCommandsFollowR431 : Prop :=
  (∀ s : State, s.dev.rd F.CXP_LSTAT_UP = 1 →
    exec .getDynamicCapacityConfiguration s = .next (s.shows (.mailbox mbxOk ([s.dev.dcRegions.length] ++
      s.dev.dcRegions.flatMap fun r => [r, s.dev.rd F.CXP_DCREG_BASE r * 2 ^ 30, s.dev.rd F.CXP_DCREG_SIZE r * 2 ^ 30, 2 ^ 30]))) ∧
    (∀ first n, exec (.getDynamicCapacityExtentList first n) s = .next (s.shows (.mailbox mbxOk
      ([((s.dev.extents.drop first).take (min n 102)).length, s.dev.extents.length, s.dev.extGen] ++
        ((s.dev.extents.drop first).take (min n 102)).flatMap fun e => [e.base * 2 ^ 30, e.size * 2 ^ 30, e.tag, 0, 0])))) ∧
    (∀ l, ∃ t, exec (.addDynamicCapacityResponse l) s = .next t ∧
      t.dev.extents = s.dev.extents.map (fun e => if e.answer = 0 then { e with answer := if e.named l then 1 else 2 } else e) ∧
      t.dev.extGen = s.dev.extGen ∧ t.dev.out.getLast? = some (.mailbox mbxOk []) ∧
      t.dev.rd F.CXP_PCNT_DECLINED = min (2 ^ F.CXP_PCNT_DECLINED.w - 1) (s.dev.rd F.CXP_PCNT_DECLINED +
        (s.dev.extents.filter fun e => e.answer = 0 && !e.named l).length)) ∧
    ∀ l, ∃ t, exec (.releaseDynamicCapacity l) s = .next t ∧ t.dev.extents = s.dev.extents ∧ t.dev.regs = s.dev.regs ∧
      t.dev.out.getLast? = some (.mailbox mbxOk [])) ∧
  ∀ (s : State) dec base size iw ig skip pos hdmDb lock,
    (dec < 8 → (∀ h ∈ s.dev.hdm, h.dec ≠ dec) →
      (s.dev.biEnable = true → hdmDb = true → iw ≤ 4 → ig ≤ 6 → size ≠ 0 → size % (2 ^ 28 * 2 ^ iw) = 0 →
        ∃ t, exec (.hdmDecoderCommit dec base size iw ig skip pos hdmDb lock) s = .next t ∧ t.dev.hdm = s.dev.hdm ++
          [{ dec := dec, base := base, size := size, iw := iw, ig := ig, pos := pos, lock := lock,
             dpa := (match s.dev.hdm.getLast? with | some h => h.dpa + h.size / 2 ^ h.iw | none => 0) + skip }]) ∧
      (s.dev.biEnable = false ∨ hdmDb = false ∨ 4 < iw ∨ 6 < ig ∨ size = 0 →
        exec (.hdmDecoderCommit dec base size iw ig skip pos hdmDb lock) s =
          .next (s.withDev { s.dev with hdmErr := sadd s.dev.hdmErr dec }))) ∧
    ((∃ h ∈ s.dev.hdm, h.dec = dec) → exec (.hdmDecoderCommit dec base size iw ig skip pos hdmDb lock) s = .next s)

/-- A response to an outstanding request removes it; a posted write asks for no more. The last response of an engine's
access is kept for its thread with the worst status and the data. A response nothing waits for changes nothing. A
request that waited RAS_TMO.FABRIC is removed, its tag rests for three times that long, and the access's run takes the
FABRIC_TIMEOUT latch with status TIMEOUT unless it held one; an earlier timeout is no event. -/
def Obligations.ResponsesEndTheirRequests : Prop :=
  ∀ (s : State) (h : Hdr) status data,
    let both := [(Instr.cmp h status, ([] : Bytes)), (.data h status data, data)]
    (s.dev.reqOf h.src h.tag = none → ∀ p ∈ both, exec p.1 s = .next s) ∧
    (∀ r, s.dev.reqOf h.src h.tag = some r → ∀ p ∈ both,
      (r.purpose = .posted → exec p.1 s = .next (s.withDev { s.dev with reqs := s.dev.reqs.filter (· ≠ r) })) ∧
      ∀ b th id u a, r.purpose = .access b th id → s.dev.thread b th = some u → u.accs.find? (·.id = id) = some a →
        ((∀ q ∈ s.dev.reqs, q ≠ r → q.purpose ≠ r.purpose) → ∃ t, exec p.1 s = .next t ∧
          t.dev.reqs = s.dev.reqs.filter (· ≠ r) ∧ t.dev.answers = s.dev.answers ++ [⟨b, th, id, max a.st status, p.2⟩] ∧
          t.sameStore s) ∧
        ((∃ q ∈ s.dev.reqs, q ≠ r ∧ q.purpose = r.purpose) → ∃ t v, exec p.1 s = .next t ∧
          t.dev.answers = s.dev.answers ∧ t.dev.reqs = s.dev.reqs.filter (· ≠ r) ∧ t.dev.thread b th = some v ∧
          v.accs = mapIf (fun x => x.id = id) (fun x => { x with st := max a.st status }) u.accs)) ∧
    ∀ tag r, s.dev.reqs.find? (·.tag = tag) = some r → (∀ q ∈ s.dev.reqs, q.tag = tag → q = r) →
      (s.tmr < r.since + s.dev.fabricMs * 100000 → exec (.fabricTimeout tag) s = .next s) ∧
      (r.since + s.dev.fabricMs * 100000 ≤ s.tmr →
        (r.purpose = .posted → ∃ t, exec (.fabricTimeout tag) s = .next t ∧ t.dev.reqs = s.dev.reqs.filter (· ≠ r) ∧
          tget t.dev.deadTags tag = some (s.tmr + 3 * s.dev.fabricMs * 100000) ∧ t.sameStore s) ∧
        ∀ b th id u a, r.purpose = .access b th id → s.dev.thread b th = some u → u.accs.find? (·.id = id) = some a →
          u.latch = none → ∃ t v l, exec (.fabricTimeout tag) s = .next t ∧ t.dev.thread b th = some v ∧ v.latch = some l ∧
            l.status = 0x18 ∧ l.type = 0x05 ∧ l.engine = 10 ∧ l.step = a.step ∧ l.node = some r.dst ∧ l.w20 = r.addr ∧
            tget t.dev.deadTags tag = some (s.tmr + 3 * s.dev.fabricMs * 100000) ∧ r ∉ t.dev.reqs)

/-- For a transaction that waits for this agent's answer and for another's: an acknowledged invalidation takes the
agent out of the line's entry, and so does MISS, which is counted as stale; FWD_DONE makes the owner and the requester
sharers; FWD_MISS takes the owner out, counted; SNP_DATA stores the line, unless a rollback discards it, and a
recalled owner stays a sharer. BIRspS and BIRspI do the same for a host. The transaction waits on for the other
answer. An answer nothing waits for changes nothing, and BIConflict is acknowledged only while a BISnp of the line
waits for the host. -/
def Obligations.SnoopAnswersChangeTheEntry : Prop :=
  ∀ (s : State) (h : Hdr) (x : Txn) (sn y : Snoop) key e,
    let line := ansLine h
    let wait := fun (a : Agent) (kind : Nat) => s.dev.trackers = [x] ∧ x.snoops = [sn, y] ∧ sn = ⟨a, line, kind⟩ ∧ y ≠ sn ∧
      s.dev.ent line = some (key, e) ∧ tget s.dev.dir key = some e
    let entry := fun (t : State) (n : DirEnt) => (t.dev.trackers = [{ x with snoops := [y] }] ∨
        t.dev.trackers = [{ x with snoops := [y], forwarded := true }]) ∧
      tget t.dev.dir key = if n.ptrs.isEmpty && !n.ovf then none else some n
    (wait (.node h.src) 0 → (∃ t, exec (.ack h) s = .next t ∧ entry t (e.drop (.node h.src)) ∧ t.sameStore s) ∧
      ∃ t, exec (.miss h) s = .next t ∧ entry t (e.drop (.node h.src)) ∧ t.sameStore s ∧
        t.dev.rd F.PTR_STALE_COUNT (s.dev.sliceOf s.variant (line * 64)) =
          min (s.dev.rd F.PTR_STALE_COUNT (s.dev.sliceOf s.variant (line * 64)) + 1) (2 ^ F.PTR_STALE_COUNT.w - 1)) ∧
    (wait (.node h.src) 3 → (∀ r, x.src.agent = some r → ∃ t, exec (.fwdDone h) s = .next t ∧
        entry t ({ e with owned := false }.add r) ∧ t.sameStore s) ∧
      ∃ t, exec (.fwdMiss h) s = .next t ∧ entry t (e.drop (.node h.src)) ∧ t.sameStore s) ∧
    (wait (.node h.src) 1 → s.noCapture → ∀ data, data.length = 64 →
      (s.dev.hold ≠ 2 → s.dev.revokedOff (line * 64) = false → ∃ t, exec (.snpData h data) s = .next t ∧
        entry t { e with owned := false } ∧ t.stored s (line * 64) data) ∧
      (s.dev.hold = 2 → ∃ t, exec (.snpData h data) s = .next t ∧ t.sameStore s)) ∧
    (∀ pbr i, s.dev.spidOf pbr = some i → wait (.spid i) 1 →
      (∃ t, exec (.birsp pbr line true) s = .next t ∧ entry t { e with owned := false } ∧ t.sameStore s) ∧
      (∃ t, exec (.birsp pbr line false) s = .next t ∧ entry t (e.drop (.spid i)) ∧ t.sameStore s) ∧
      exec (.biconflict pbr line) s = .next (s.shows (.biConflictAck (s.dev.hostId pbr) line))) ∧
    (s.dev.trackers = [] → s.dev.victims = [] → ∀ i ∈ [Instr.ack h, .miss h, .fwdDone h, .fwdMiss h, .snpData h [],
      .birsp h.src line true, .biconflict h.src line], exec i s = .next s)

/-- A snoop outstanding for less than RAS_TMO.FABRIC does not time out. One of a fabric node that has waited that long
counts as answered, the transaction waiting on for another: a silent sharer leaves the entry, a silent owner's line is
poisoned, its entry freed and PTR_POISON counted. For a host the SPID has failed as well, with cause 2. The earliest
waiting request of a line that is not busy leaves the conflict queue and starts; one whose line is busy keeps waiting.
-/
def Obligations.UnansweredSnoopsAndWaitingRequests : Prop :=
  ∀ (s : State) line,
    (∀ node, s.dev.lateSnoop s.cx (.node node) line = none → exec (.snoopTimeout node line) s = .next s) ∧
    (∀ i, s.dev.lateSnoop s.cx (.spid i) line = none → exec (.birspTimeout i line) s = .next s) ∧
    (∀ node (x : Txn) (sn y : Snoop) key e, s.dev.trackers = [x] → x.snoops = [sn, y] → y ≠ sn → sn.agent = .node node →
      sn.line = line → x.since + s.dev.fabricMs * 100000 ≤ s.tmr → s.dev.ent line = some (key, e) → s.dev.hold ≠ 2 → s.noCapture →
      ∃ t, exec (.snoopTimeout node line) s = .next t ∧ t.dev.trackers = [{ x with snoops := [y] }] ∧
        (sn.kind = 0 → t.dev.mem = s.dev.mem ∧ tget t.dev.dir key =
          if (e.drop (.node node)).ptrs.isEmpty && !e.ovf then none else some (e.drop (.node node))) ∧
        (sn.kind ≠ 0 → t.dev.poisoned line = true ∧ tget t.dev.dir key = none ∧
          t.dev.rd F.PTR_POISON_MARKED (s.dev.sliceOf s.variant (line * 64)) =
            min (s.dev.rd F.PTR_POISON_MARKED (s.dev.sliceOf s.variant (line * 64)) + 1) (2 ^ F.PTR_POISON_MARKED.w - 1))) ∧
    (∀ i (x : Txn), s.dev.lateSnoop s.cx (.spid i) line = some x → ∃ t, exec (.birspTimeout i line) s = .next t ∧
      t.dev.rd F.CXP_SPID_FAILED i = 1 ∧ t.dev.rd F.CXP_SPID_FCAUSE i = 2 ∧ Agent.spid i ∈ t.dev.failed) ∧
    (s.dev.conflict = [] → exec (.trackerAdmit line) s = .next s) ∧
    ∀ (x : Txn) r, s.dev.conflict = x :: r → x.covers line = true →
      (s.dev.busyTxn x = true → exec (.trackerAdmit line) s = .next s) ∧
      (s.dev.busyTxn x = false → s.dev.chFenced s.variant x.line = false →
        s.dev.trackersOf s.variant (s.dev.sliceOf s.variant (x.line * 64)) < 1024 →
        exec (.trackerAdmit line) s = .next (s.withDev (({ s.dev with conflict := r }).start s.cx x)))

/-- A peer's signal on an enabled DOWN link with its cable starts training, counted after the first; without the
conditions nothing happens. FRAMING_LOCK sends IDENT and enters step 4. IDENT shows the peer and enters KEYING, or UP
unprotected when both ends allow PLAIN and the lock is clear. The last fragment of the peer's SIG, its other parts
being in, makes the link UP and secure when the chain, the hash and the signature hold and neither end is in debug; a
failure takes it DOWN with FAILSTEP 5 and counts its cause; so does FAIL. A step past its limit takes the link DOWN
with FAILSTEP naming it. -/
def Obligations.LinksTrainAndAgreeOnKeys : Prop :=
  ∀ (s : State) link, let l := s.dev.lk link
    let down := fun (t : State) step => t.dev.lstate link = 1 ∧ t.dev.rd F.LNK_STAT_FAILSTEP link = step ∧
      t.dev.rd F.LNK_STAT_SECURE link = 0 ∧ (t.dev.lk link).replay = []
    (if s.dev.mayTrain s.cx link = true then ∃ t, exec (.linkDetect link) s = .next t ∧ t.dev.lstate link = 2 ∧
        (t.dev.lk link).step = 2 ∧ (t.dev.lk link).trained = true ∧ t.dev.rd F.LNK_STAT_RETRAINS link =
          min (s.dev.rd F.LNK_STAT_RETRAINS link + if l.trained then 1 else 0) (2 ^ 32 - 1)
      else exec (.linkDetect link) s = .next s) ∧
    (s.dev.lstate link = 2 → l.step = 2 → ∃ t h, exec (.framingLock link) s = .next t ∧ t.dev.lstate link = 2 ∧
      (t.dev.lk link).step = 4 ∧ t.dev.out = s.dev.out ++
        [.linkctl link 1 [s.dev.rd F.MAP_NODE_NODE, s.dev.rd F.MAP_NODE_VALID, link, 0, h]]) ∧
    (s.dev.lstate link = 2 → l.step = 4 → ∀ node nodev peer acc hash plain, ∃ t,
      exec (.ident link node nodev peer acc hash plain) s = .next t ∧ t.dev.rd F.LNK_STAT_PEERV link = 1 ∧
      t.dev.rd F.LNK_STAT_PEER_NODE link = node % 2 ^ 14 ∧ t.dev.rd F.LNK_STAT_PEER_LINK link = peer % 2 ^ 7 ∧
      (if plain = true ∧ s.dev.rd F.LNK_CTL_PLAIN link = 1 ∧ s.lock = false then
        t.dev.lstate link = 4 ∧ t.dev.rd F.LNK_STAT_SECURE link = 0 ∧ t.dev.rd F.LNK_TXCTR_CTR link = l.replay.length % 2 ^ 64
      else t.dev.lstate link = 3)) ∧
    (s.dev.lstate link = 3 → s.dev.keyWaits link = false →
      (∀ frag last data a b c, ∃ t, exec (.keymsg link 4 frag last data a b c) s = .next t ∧ down t 5) ∧
      ∀ frag data chainOk hashOk sigOk, l.partsDone = [1, 2] → ((tget l.parts 3).getD []).length = 12 * frag →
        let debug := s.dev.rd F.SEC_DBG_STATE = 0 ∧ ((tget l.parts 1).getD []).getD 81 0 = 0
        ∃ t, exec (.keymsg link 3 frag true data chainOk hashOk sigOk) s = .next t ∧
          (chainOk = true → hashOk = true → sigOk = true → debug → t.dev.lstate link = 4 ∧
            t.dev.rd F.LNK_STAT_SECURE link = 1 ∧ t.dev.rd F.LNK_KEY_RXGEN link = 1 ∧
            (l.sw = none → t.dev.rd F.LNK_KEY_TXGEN link = 1)) ∧
          (chainOk = false ∨ hashOk = false → down t 5 ∧
            t.dev.rd F.SEC_LKFAIL_CHAIN = min (s.dev.rd F.SEC_LKFAIL_CHAIN + 1) (2 ^ F.SEC_LKFAIL_CHAIN.w - 1)) ∧
          (chainOk = true → hashOk = true → sigOk = false → down t 5 ∧
            t.dev.rd F.SEC_LKFAIL_SIG = min (s.dev.rd F.SEC_LKFAIL_SIG + 1) (2 ^ F.SEC_LKFAIL_SIG.w - 1)) ∧
          (chainOk = true → hashOk = true → sigOk = true → ¬debug → down t 5)) ∧
    ∀ step, step < 8 → l.step = step → step ≠ 0 → s.dev.lstate link = 2 ∨ s.dev.lstate link = 3 →
      (step = 5 → s.dev.keyWaits link = false) →
      (s.tmr < l.stepAt + stepLimit step → exec (.trainingStepTimeout link step) s = .next s) ∧
      (l.stepAt + stepLimit step ≤ s.tmr → ∃ t, exec (.trainingStepTimeout link step) s = .next t ∧ down t step)

/-- An UP link goes DOWN at a loss of signal, when PF0 disables it, and when its cable is taken out; its
unacknowledged flits are discarded. PF0's RETRAIN and a lost alignment make it train again with those flits kept; a
second time within 1 s takes it DOWN. LINK_ENABLE sets LNK_CTL.EN and nothing else. A retiring link whose flits are
acknowledged and whose queue is empty, or that waited 1 ms, becomes RETIRED and PF0 is told; before that the row is no
event. -/
def Obligations.LinksLeaveUp : Prop :=
  ∀ (s : State) link, let l := s.dev.lk link
    let gone := fun (t : State) n => t.dev.lstate link = n ∧ t.dev.rd F.LNK_STAT_SECURE link = 0 ∧ (t.dev.lk link).replay = [] ∧
      (t.dev.lk link).txq = []
    let soon := ∃ x, l.lastRetrain = some x ∧ s.tmr < x + 100000000
    let again := fun (i : Instr) => ∃ t, exec i s = .next t ∧ (soon → t.dev.lstate link = 1 ∧ (t.dev.lk link).replay = []) ∧
      (¬soon → t.dev.lstate link = 2 ∧ (t.dev.lk link).replay = l.replay ∧ (t.dev.lk link).lastRetrain = some s.tmr)
    (s.dev.lstate link = 4 →
      (l.txq = [] → (∃ t, exec (.lossOfSignal link) s = .next t ∧ gone t 1) ∧
        ∀ conn, conn < s.variant.links / 8 → conn ≠ 12 → link / 8 = conn →
          ∃ t, exec (.cablePresenceChange conn false) s = .next t ∧ t.dev.lstate link = 1 ∧ conn ∉ t.dev.cables) ∧
      again (.lostAlignment link) ∧ (s.dev.pf0Up = true → again (.retrain link))) ∧
    (s.dev.pf0Up = true → link < s.variant.links →
      (exec (.linkEnable link) s = .next (s.withDev (s.dev.wr F.LNK_CTL_EN link 1))) ∧
      ∃ t, exec (.linkDisable link) s = .next t ∧ t.dev.rd F.LNK_CTL_EN link = 0 ∧ t.dev.lstate link =
        if s.dev.lstate link = 2 ∨ s.dev.lstate link = 3 ∨ s.dev.lstate link = 4 then 1 else s.dev.lstate link) ∧
    (∀ conn, conn < s.variant.links / 8 → conn ≠ 12 →
      exec (.cablePresenceChange conn true) s = .next (s.withDev { s.dev with cables := sadd s.dev.cables conn })) ∧
    (l.retiring = true → l.quiet = false →
      (s.dev.lstate link = 4 → l.replay ≠ [] → s.tmr < l.since + 100000 → exec (.linkRetireEnd link) s = .next s) ∧
      ((l.replay = [] ∧ l.txq = []) ∨ l.since + 100000 ≤ s.tmr → ∃ t, exec (.linkRetireEnd link) s = .next t ∧
        t.dev.lstate link = 5 ∧ (t.dev.lk link).replay = [] ∧ (l.lasting = true → 128 + link ∈ t.dev.lasting)))

/-- The expected sequenced flit is accepted: its ACK empties the replay buffer up to it, its credits are added, the
retry ends. A bad flit is not accepted: the link asks once for the SEQ it expects. RETRY_REQ resends every flit kept
from the named SEQ on. An answer missing for 2 microseconds repeats the RETRY_REQ, and after 8 without progress the
link trains again. CREDIT adds slots to a VC. A message at the head of its VC whose slots are in hand leaves the queue
and pays for them. REKEY names a counter 1,024 ahead, KEY_SWITCH is answered KEY_READY, and without it the switch
moves by 1,024. -/
def Obligations.FlitsAreAcceptedRetriedAndPaidFor : Prop :=
  ∀ (s : State) link, let l := s.dev.lk link
    let due := (l.rxLast + 1) % 1024
    let room := l.replay.length < 512
    let tx := s.dev.rd F.LNK_TXCTR_CTR link
    let sent := fun (t : State) (ctl : Nat × List Nat) => (t.dev.lk link).replay =
      l.replay ++ [{ seq := (l.txSeq + 1) % 1024, msg := none, ctl := some ctl }]
    s.dev.lstate link = 4 →
    (∀ f : RxFlit, f.bad = false → f.integ = true → f.uncorr = 0 →
      (f.ftype ≠ 1 → f.seq = due → ∃ t, exec (.flitReceive link f) s = .next t ∧ (t.dev.lk link).rxLast = due ∧
        (t.dev.lk link).retry = none ∧ (t.dev.lk link).replay = ackReplay f.ack l.replay ∧
        (t.dev.lk link).cred = addAt l.cred f.cvc f.crd) ∧
      (f.ftype = 1 → ∃ t, exec (.flitReceive link f) s = .next t ∧ (t.dev.lk link).rxLast = l.rxLast ∧
        (t.dev.lk link).replay = ackReplay f.ack l.replay)) ∧
    (∀ f : RxFlit, f.bad = true → f.uncorr = 0 → l.retry = none → room → l.sw = none →
      ∃ t, exec (.flitReceive link f) s = .next t ∧ (t.dev.lk link).rxLast = l.rxLast ∧
        (t.dev.lk link).retry = some (1, s.tmr) ∧ sent t (3, [due])) ∧
    (∀ seq, l.sw = none → exec (.retryReq link seq) s = .next (s.withDev
      ((s.dev.inc F.LNK_ERR_RETRIES link).resend link (l.replay.dropWhile fun f => f.seq ≠ seq)))) ∧
    (∀ n at_, l.retry = some (n, at_) →
      (s.tmr < at_ + 200 → exec (.retryReqRepeat link) s = .next s) ∧
      (at_ + 200 ≤ s.tmr → n < 8 → room → l.sw = none → ∃ t, exec (.retryReqRepeat link) s = .next t ∧
        (t.dev.lk link).retry = some (n + 1, s.tmr) ∧ sent t (3, [due])) ∧
      (at_ + 200 ≤ s.tmr → 8 ≤ n → l.lastRetrain = none → ∃ t, exec (.retryReqRepeat link) s = .next t ∧
        t.dev.lstate link ≠ 4)) ∧
    (∀ vc slots, vc < 8 → exec (.credit link vc slots) s = .next (s.withDev (s.dev.setLk link
      { l with cred := addAt l.cred vc (slots % 128) }))) ∧
    (∀ m r, l.txq = m :: r → msgSlots m ≤ l.cred.getD (vcOf m.mtype) 0 → msgSlots m ≤ 15 →
      (vcOf m.mtype = 6 ∨ vcOf m.mtype = 1 ∧ ∀ x ∈ r, vcOf x.mtype ≠ 6) → l.replay.length < 510 → l.sw = none →
      ∃ t, exec (.messageTransmit link 0) s = .next t ∧ (t.dev.lk link).txq = r ∧
        (t.dev.lk link).cred = takeAt l.cred (vcOf m.mtype) (msgSlots m) ∧
        (t.dev.lk link).replay = l.replay ++ [{ seq := (l.txSeq + 1) % 1024, msg := some m, ctl := none }]) ∧
    (l.txq = [] → l.owed = [] → ∃ t, exec (.messageTransmit link 0) s = .next t ∧ t.dev.out = s.dev.out ∧
      (t.dev.lk link).txq = [] ∧ (t.dev.lk link).replay = l.replay) ∧
    (s.dev.rd F.LNK_STAT_SECURE link = 1 → room →
      (l.sw = none → ∃ t, exec (.rekey link true) s = .next t ∧ sent t (5, [tx + 1024]) ∧
        (t.dev.lk link).sw = some (tx + 1024)) ∧
      ∀ at_, (l.sw = none → ∃ t, exec (.keySwitch link at_) s = .next t ∧ sent t (6, [at_]) ∧ (t.dev.lk link).rxSw = some at_)) ∧
    (∀ at_, l.sw = some at_ →
      exec (.keyReady link at_) s = .next (s.withDev (s.dev.setLk link { l with swReady := true })) ∧
      (l.swReady = false → tx + 64 < at_ → exec (.keySwitchDeadline link) s = .next s) ∧
      (l.swReady = false → at_ ≤ tx + 64 → room → ∃ t, exec (.keySwitchDeadline link) s = .next t ∧
        sent t (5, [at_ + 1024]) ∧ (t.dev.lk link).sw = some (at_ + 1024)))

/-- A message of a known type for another node, arrived on an UP link, joins the queue of the link the path hash
chooses among those eligible, and nothing else changes. With no eligible link, or only the one it came from, it is
counted in UNROUTABLE, a Request or Reduce message being answered CMP with status DENIED. A reserved type is counted
and dropped. A snoop for this node, which holds no copy of other nodes' lines, is answered MISS or FWD_MISS (the
model's reading). INTR for this module is answered with CMP. -/
def Obligations.MessagesAreSwitchedOnwards : Prop :=
  ∀ (s : State) link (m : Msg), s.dev.lstate link = 4 →
    let links := s.dev.eligible m.dst
    (mtypeKnown m.mtype = false → exec (.switchForward link m) s = .next (s.withDev (s.dev.inc F.MAP_RSTAT_BADMSG 0))) ∧
    (mtypeKnown m.mtype = true → m.grp = false → m.dst ≠ s.dev.rd F.MAP_NODE_NODE →
      (∀ i, chooseLink links m.off m.dst m.src = some i → links ≠ [link] →
        exec (.switchForward link m) s = .next (s.withDev (s.dev.enqueue i m)) ∧
        ((s.dev.enqueue i m).lk i).txq = (s.dev.lk i).txq ++ [m] ∧ i ∈ links) ∧
      (links = [] ∨ links = [link] → ∃ t, exec (.switchForward link m) s = .next t ∧
        t.dev.rd F.MAP_RSTAT_UNROUTABLE ≥ min (s.dev.rd F.MAP_RSTAT_UNROUTABLE + 1) (2 ^ F.MAP_RSTAT_UNROUTABLE.w - 1) ∧
        (vcOf m.mtype ≠ 0 → vcOf m.mtype ≠ 4 → t.dev.out = s.dev.out) ∧
        (vcOf m.mtype = 0 ∨ vcOf m.mtype = 4 → t.dev.out = s.dev.out ++ [.msg
          { mtype := 0x30, dst := m.src, src := m.dst, tag := m.tag, status := 1, off := m.off }]))) ∧
    (m.dst = s.dev.rd F.MAP_NODE_NODE → m.grp = false → ∀ p ∈ [(0x20, 0x33), (0x21, 0x33), (0x22, 0x33), (0x28, 0x35), (0x29, 0x35)],
      m.mtype = p.1 → ∃ t, exec (.switchForward link m) s = .next t ∧ t.sameStore s ∧ t.dev.dir = s.dev.dir ∧
        t.dev.out = s.dev.out ++ [.msg { mtype := p.2, dst := m.src, src := s.dev.rd F.MAP_NODE_NODE, tag := m.tag, off := m.off }]) ∧
    (m.grp = true → mtypeKnown m.mtype = true → s.dev.rd F.MAPM_RMASK1_VALID m.dst = 0 →
      exec (.switchForward link m) s = .next (s.withDev (s.dev.inc F.MAP_RSTAT_UNROUTABLE 0))) ∧
    ∀ h, ∃ t, exec (.intr h) s = .next t ∧ t.sameStore s ∧ t.dev.out = s.dev.out ++ [s.cmpOf h 0]

/-- For a thread about to run the step: SMOV, SADD, SSUB, SAND, SOR, SSHL, SSHR and SMUL write the value R197 gives
into S[DST] and no other scalar register, ZERO and NEG are those of that value, and the thread goes on at the step
selected. LCSET loads LC[LCSEL] with SRCA[31:0], which LCDEC of the same step then decrements, and changes no scalar
register. NOP has no result: registers and the flags ZERO and NEG stay. Memory, vector registers, scratch, other
threads and what was sent do not change. -/
def Obligations.ScalarStepsWriteTheirResult : Prop :=
  ∀ (s : State) bay thr t, let st := s.dev.stepAt t.step
    let a := t.val st st.srca
    let b := t.val st st.srcb
    (∀ p ∈ [(Instr.smov bay thr none, 2, a), (.sadd bay thr none, 3, a + b), (.ssub bay thr none, 4, a + (2 ^ 64 - b % 2 ^ 64)),
        (.sand bay thr none, 5, a &&& b), (.sor bay thr none, 6, a ||| b), (.sshl bay thr none, 7, a * 2 ^ (b % 64)),
        (.sshr bay thr none, 8, a % 2 ^ 64 / 2 ^ (b % 64)), (.smul bay thr none, 9, a * b)],
      s.atStep bay thr 0 p.2.1 t → ∃ t' u, exec p.1 s = .next t' ∧ t'.wentOn bay thr st u ∧ t'.onlyThread s bay thr ∧
        t'.sameRegs s ∧ (kindOf st.dst = 2 → (tget u.sreg (idxOf st.dst % 32)).getD 0 = p.2.2 % 2 ^ 64) ∧
        (∀ i, (kindOf st.dst = 2 → i ≠ idxOf st.dst % 32) → tget u.sreg i = tget t.sreg i) ∧
        bit u.flags 2 = decide (p.2.2 % 2 ^ 64 = 0) ∧ bit u.flags 3 = bit (p.2.2 % 2 ^ 64) 63) ∧
    (s.atStep bay thr 0 1 t → ∃ t' u, exec (.lcset bay thr none) s = .next t' ∧ t'.wentOn bay thr st u ∧
      t'.onlyThread s bay thr ∧ t'.sameRegs s ∧ u.sreg = t.sreg ∧
      (tget u.lc st.lcsel).getD 0 = (if st.lcdec then a % 2 ^ 32 - 1 else a % 2 ^ 32) ∧
      bit u.flags 2 = decide (a % 2 ^ 32 = 0) ∧ bit u.flags 3 = false) ∧
    (s.atStep bay thr 0 0 t → ∃ t' u, exec (.ctlNop bay thr none) s = .next t' ∧ t'.wentOn bay thr st u ∧
      t'.onlyThread s bay thr ∧ t'.sameRegs s ∧ u.sreg = t.sreg ∧ bit u.flags 2 = bit t.flags 2 ∧
      bit u.flags 3 = bit t.flags 3)

/-- Every step that has issued selects through one operation. When it waits for no access and its flag is known,
LC[LCSEL] is decremented first with LCDEC = 1, a counter at 0 staying at 0; ALWAYS reads 1, LCZ reads whether that
counter is 0, and no other flag but DLPAST changes; then c = FLAG[CSEL] XOR CINV gives NEXT_T or NEXT_F, so that an
unconditional step, CSEL = 0 and CINV = 0, takes NEXT_T. While the flag is not known the thread stays at its step,
STALLED. -/
def Obligations.StepsSelectTheirSuccessor : Prop :=
  ∀ (s : State) bay thr t, s.dev.thread bay thr = some t → t.sel = true → t.state ≠ 3 → t.wait = 0 →
    let st := s.dev.stepAt t.step
    let d := s.dev.trySelect s.cx bay thr
    (bit t.unk st.csel = false → ∃ u, d.thread bay thr = some u ∧
      (tget u.lc st.lcsel).getD 0 = (tget t.lc st.lcsel).getD 0 - (if st.lcdec then 1 else 0) ∧
      (∀ i, i ≠ st.lcsel → tget u.lc i = tget t.lc i) ∧
      bit u.flags 0 = true ∧ bit u.flags 1 = decide ((tget u.lc st.lcsel).getD 0 = 0) ∧
      (∀ n, n ≠ 0 → n ≠ 1 → n ≠ 10 → bit u.flags n = bit t.flags n) ∧
      (s.withDev d).wentOn bay thr st u ∧ (st.csel = 0 → st.cinv = false → u.step = st.nextT)) ∧
    (bit t.unk st.csel = true → ∃ u, d.thread bay thr = some u ∧ u.state = 2 ∧ u.step = t.step ∧ u.flags = t.flags)

/-- For a thread about to run the step, with its stream declared and its destination inside its space: LDSEQ issues
the next elements of a sequential stream, as many as are active and left, and the stream moves on; LDROW row SRCB of
an indexed one; LDIDX the next index of a bag into S[DST]. SEND is reported with the last element of the declared
range. Nothing is issued, and the flag says why, at a stream's end (SEND), a used up bag (BAGEND), a row beyond the
table (INVIDX), and for LDSHADOW with no current shadow (ABSENT). LDSHADOW of a current shadow delivers the row's
bytes. -/
def Obligations.LoadStepsIssueTheirAccess : Prop :=
  ∀ (s : State) bay thr t x, let st := s.dev.stepAt t.step
    let k := strmOf st.srca
    let n := min (t.active st) x.left
    let nothing := fun (fl : List Nat) => Host.Outcome.next (s.withDev (s.dev.noIssue s.cx bay thr fl))
    tget t.strms k = some x →
    (s.atStep bay thr 1 0 t → x.indexed = false →
      (n ≠ 0 → t.inside st.dst (n * x.es) = true → exec (.ldseq bay thr none) s =
        .next (s.withDev (s.dev.issueWith s.cx bay thr t (t.setStrm k (x.step n))
          { kind := 0, strm := k, tva := x.at_ n, len := n * x.es, fetch := true, dst := st.dst, at_ := t.dstAt st.dst,
            nodl := bit st.imm 0 } (if n = x.left then [4] else []) (some (x.at_ n))))) ∧
      (x.left = 0 → exec (.ldseq bay thr none) s = nothing [4])) ∧
    (s.atStep bay thr 1 1 t → x.indexed = true →
      (t.val st st.srcb < x.len → t.inside st.dst (fmtLen st.fmt (t.active st)) = true → exec (.ldrow bay thr none) s =
        .next (s.withDev (s.dev.issueWith s.cx bay thr t t
          { kind := 0, strm := k, tva := x.base + t.val st st.srcb * x.stride, len := fmtLen st.fmt (t.active st),
            fetch := true, dst := st.dst, at_ := t.dstAt st.dst, nodl := bit st.imm 0 }
          (if t.val st st.srcb + 1 = x.len then [4] else []) none))) ∧
      (x.len ≤ t.val st st.srcb → exec (.ldrow bay thr none) s = nothing [6])) ∧
    (s.atStep bay thr 1 2 t → x.indexed = false →
      (0 < x.bag → x.left ≠ 0 → exec (.ldidx bay thr none) s =
        .next (s.withDev (s.dev.issueWith s.cx bay thr t (t.setStrm k { (x.step 1) with bag := x.bag - 1 })
          { kind := 0, strm := k, tva := x.at_ 1, len := min 8 x.es, fetch := true, dst := 512 + idxOf st.dst % 32,
            nodl := bit st.imm 0 } (if x.left = 1 then [4] else []) (some (x.at_ 1))))) ∧
      (x.bag = 0 → exec (.ldidx bay thr none) s = nothing [5])) ∧
    (s.atStep bay thr 1 3 t → ∀ env sh r,
      (shadowOf { (s.dev.whoOf s.cx bay thr t) with deadline := none } (t.words.getD 2 0) t.start).run
        { d := s.dev, env := env } = (sh, r) → r.busy = false →
      (sh = none → exec (.ldshadow bay thr env none) s = .next (s.withDev (r.d.noIssue s.cx bay thr [7]))) ∧
      ∀ e, sh = some e →
        (x.len ≤ t.val st st.srcb → exec (.ldshadow bay thr env none) s = .next (s.withDev (r.d.noIssue s.cx bay thr [6]))) ∧
        let b := ((e.data.drop (t.val st st.srcb * (e.rowlen * fmtBits e.sfmt / 8))).take (e.rowlen * fmtBits e.sfmt / 8)).take
          (fmtLen e.sfmt (t.active st))
        (t.val st st.srcb < x.len → t.val st st.srcb < e.rows → t.inside st.dst b.length = true →
          exec (.ldshadow bay thr env none) s = .next (s.withDev
            (((r.d.dstBytes (thrKey bay thr) t st.dst 0 b).1.putThread bay thr
              (r.d.dstBytes (thrKey bay thr) t st.dst 0 b).2).noIssue s.cx bay thr
                (if t.val st st.srcb + 1 = x.len then [4] else [])))))

/-- For a thread about to run the step, with its stream declared and its operands inside their spaces: STSEQ and
STMASK write SRCA to the next elements of the stream, under a mask of all bytes or of SRCB; STROW to row SRCB; ATOMIC
does IMM's operation on the stream's next element, with SRCB as operand and the old value to DST; COPY moves IMM x 64
bytes between two spaces. A row beyond the table reports INVIDX, an operand outside SCRATCH or PINNED issues nothing
and fills the latch, and an atomic its element type does not allow reports ACCERR with a FORMAT latch. -/
def Obligations.StoreAndAtomicStepsIssueTheirAccess : Prop :=
  ∀ (s : State) bay thr t x, let st := s.dev.stepAt t.step
    let k := strmOf st.dst
    let ka := strmOf st.srca
    let n := min (t.active st) x.left
    let len := n * x.es
    let src := fun l => s.dev.srcBytes (thrKey bay thr) t st st.srca l
    let w := fmtLen st.fmt (t.active st)
    let nothing := fun (fl : List Nat) => Host.Outcome.next (s.withDev (s.dev.noIssue s.cx bay thr fl))
    (tget t.strms k = some x → x.indexed = false → n ≠ 0 → t.inside st.srca len = true →
      ∀ p ∈ [(Instr.stseq bay thr none, 0, 2 ^ len - 1), (.stmask bay thr none, 2,
          if kindOf st.srcb = 1 then leNat (s.dev.srcBytes (thrKey bay thr) t st st.srcb (ceilDiv len 8)) else t.val st st.srcb)],
        s.atStep bay thr 2 p.2.1 t → exec p.1 s = .next (s.withDev (s.dev.issueWith s.cx bay thr t (t.setStrm k (x.step n))
          { kind := 1, strm := k, tva := x.at_ n, len := len, mask := p.2.2 % 2 ^ len, data := src len }
          (if n = x.left then [4] else []) (some (x.at_ n))))) ∧
    (tget t.strms k = some x → s.atStep bay thr 2 1 t → x.indexed = true →
      (t.val st st.srcb < x.len → t.inside st.srca w = true → exec (.strow bay thr none) s =
        .next (s.withDev (s.dev.issueWith s.cx bay thr t t
          { kind := 1, strm := k, tva := x.base + t.val st st.srcb * x.stride, len := w, mask := (2 ^ w - 1) % 2 ^ w,
            data := src w } (if t.val st st.srcb + 1 = x.len then [4] else []) none))) ∧
      (t.val st st.srcb < x.len → t.inside st.srca w = false → exec (.strow bay thr none) s =
        .next (s.withDev (s.dev.outside s.cx bay thr t st.srca))) ∧
      (x.len ≤ t.val st st.srcb → exec (.strow bay thr none) s = nothing [6])) ∧
    (tget t.strms ka = some x → s.atStep bay thr 3 0 t → x.indexed = false →
      let whole := bit st.imm 8
      let ety := bits st.imm 4 3
      let l := if whole then 64 else (etyBytes ety).getD 4
      let m := max 1 (l / x.es)
      let operand := fun (ref : Nat) => if kindOf ref = 2 || kindOf ref = 4 || kindOf ref = 5 || kindOf ref = 8 then
        takeBytes l (leBytes 8 (t.val st ref)) else s.dev.srcBytes (thrKey bay thr) t st ref l
      m ≤ x.left → t.inside st.srcb l = true → t.inside st.dst l = true →
      (aopValid (bits st.imm 0 4) ety whole = true → x.at_ m % l = 0 → exec (.atomAtomic bay thr none) s =
        .next (s.withDev (s.dev.issueWith s.cx bay thr t (t.setStrm ka (x.step m))
          { kind := 2, strm := ka, tva := x.at_ m, len := l, fetch := bit st.imm 7,
            dst := if bit st.imm 7 then st.dst else 0, at_ := t.dstAt st.dst,
            atom := some { aop := bits st.imm 0 4, ety := ety, whole := whole, fetch := bit st.imm 7, at_ := 0,
                           operand := operand st.srcb, cmp := operand st.dst } }
          (if x.left = m then [4] else []) none))) ∧
      (aopValid (bits st.imm 0 4) ety whole = false → exec (.atomAtomic bay thr none) s = .next (s.withDev
        ((s.dev.putThread bay thr (t.latchFault { status := 0x10, type := 0, engine := 10, step := t.step })).noIssue s.cx
          bay thr [15])))) ∧
    (s.atStep bay thr 0xA 0 t → st.imm ≠ 0 →
      let l := st.imm * 64
      let m := max 1 (l / x.es)
      (kindOf st.srca = 3 → (kindOf st.dst = 6 ∨ kindOf st.dst = 7) → t.inside st.dst l = true → tget t.strms ka = some x →
        exec (.copy bay thr none) s = .next (s.withDev (s.dev.issueWith s.cx bay thr t (t.setStrm ka (x.step m))
          { kind := 3, strm := ka, tva := x.at_ m, len := l, fetch := true, dst := st.dst, at_ := t.dstAt st.dst } []
          (some (x.at_ m))))) ∧
      (kindOf st.dst = 3 → (kindOf st.srca = 6 ∨ kindOf st.srca = 7) → t.inside st.srca l = true → tget t.strms k = some x →
        exec (.copy bay thr none) s = .next (s.withDev (s.dev.issueWith s.cx bay thr t (t.setStrm k (x.step m))
          { kind := 4, strm := k, tva := x.at_ m, len := l, mask := 2 ^ l - 1, data := src l } [] (some (x.at_ m))))) ∧
      (kindOf st.srca = 6 → kindOf st.dst = 7 → t.inside st.srca l = true → t.inside st.dst l = true →
        ∃ t', exec (.copy bay thr none) s = .next t' ∧ t'.sameStore s ∧
          (List.range l).map (fun i => (tget t'.dev.pwin (thrKey bay thr * 2 ^ 40 + t.addr st.dst + i)).getD 0) = src l))

/-- A step of an access unit that issues nothing reports the flag that says why, clears the other access flags, and
the thread goes on at the step selected; memory, registers and other threads do not change. An access that misses both
translation caches, at a root that holds its page, waits: its thread has it outstanding, a miss slot of its stream
holds the page, and a walk of that page for the thread's collar counts the stream among its waiters. -/
def Obligations.AccessStepsThatIssueNothingReportTheirFlag : Prop :=
  ∀ (s : State) bay thr t, s.dev.thread bay thr = some t →
    (t.state ≠ 3 → t.accs = [] → ∀ n ∈ accessFlags, ∃ u,
      (s.withDev (s.dev.noIssue s.cx bay thr [n])).wentOn bay thr (s.dev.stepAt t.step) u ∧
      (s.withDev (s.dev.noIssue s.cx bay thr [n])).onlyThread s bay thr ∧
      (s.withDev (s.dev.noIssue s.cx bay thr [n])).sameRegs s ∧ u.sreg = t.sreg ∧ u.strms = t.strms ∧
      bit u.flags n = true ∧ ∀ m ∈ accessFlags, m ≠ n → bit u.flags m = false) ∧
    ∀ id a, t.accs.find? (·.id = id) = some a → s.dev.rootFault t.collar a.tva = none →
      probe s.dev.bayTlb (fun x => baySet bay t.collar x a.tva) t.collar a.tva = none →
      probe s.dev.shrTlb (fun x => shrSet t.collar x a.tva) t.collar a.tva = none →
      ∃ u w, let d := s.dev.issueAcc s.cx bay thr id
        d.thread bay thr = some u ∧ u.accs = t.accs ∧ (a.strm % 4, a.tva / 4096, true) ∈ u.slots ∧
        w ∈ d.walks ∧ w.collar = t.collar ∧ w.page = a.tva / 4096 ∧ w.demand = true ∧
        (bay, 4 * thr + a.strm % 4) ∈ w.waiters ∧ d.mem = s.dev.mem

/-- For a thread about to run a LANE step into a vector register, its other operands inside their spaces, in a format
of R198: each active lane of DST becomes the operation of the SRCA lane, the SRCB element of the same number and the
old lane. In a floating-point format that is the FP32 operation, FMA fused; in an integer format the exact result
saturated to INT32. SCALE takes SRCB as one scalar. A lane beyond the active count keeps its value, and memory,
scratch, other registers and threads do not change. MAC8 and MAC4 add to the old lane the exact products of the SRCA
lane with the elements 2i and 2i + 1 as INT8, or 4i to 4i + 3 as INT4, saturated to INT32. What DOT sums the spec does
not say: its active lanes are free values (the model's choice). -/
def Obligations.LaneStepsComputeEveryActiveLane : Prop :=
  ∀ (s : State) bay thr t, let st := s.dev.stepAt t.step
    let n := t.active st
    let w := laneBits st.fmt
    let old := fun i => s.lane bay thr (idxOf st.dst % 16) i
    let x := fun i => (elems 4 n (s.dev.srcBytes (thrKey bay thr) t st st.srca (4 * n))).getD i 0
    let y := s.dev.srcBytes (thrKey bay thr) t st st.srcb (ceilDiv (n * w) 8)
    let two := fun (fp : Nat → Nat → Nat) (int : Int → Int → Int) i =>
      if laneFp st.fmt then fp (x i) (laneFloat st.fmt y i) else sat32 (int (toSigned 32 (x i)) (laneInt st.fmt y i))
    let rest := fun (t' : State) (u : Thread) => t'.wentOn bay thr st u ∧ t'.onlyThread s bay thr ∧
      t'.dev.scratch = s.dev.scratch ∧ u.sreg = t.sreg ∧ (∀ v i, v < 16 → i < 512 → (v ≠ idxOf st.dst % 16 ∨ n ≤ i) →
        t'.lane bay thr v i = s.lane bay thr v i)
    kindOf st.dst = 1 → t.inside st.srca (4 * n) = true →
    (t.inside st.srcb (ceilDiv (n * w) 8) = true → w ≠ 0 →
      ∀ p ∈ [(Instr.laneFma bay thr none, 0, fun i => if laneFp st.fmt then ffma (x i) (laneFloat st.fmt y i) (old i)
            else sat32 (toSigned 32 (x i) * laneInt st.fmt y i + toSigned 32 (old i))),
          (.laneAdd bay thr none, 1, two fadd fun a b => a + b), (.laneMul bay thr none, 2, two fmul fun a b => a * b),
          (.laneMax bay thr none, 3, two (fmaxBits fp32) fun a b => max a b),
          (.laneMin bay thr none, 4, two (fminBits fp32) fun a b => min a b)],
        s.atStep bay thr 4 p.2.1 t → ∃ t' u, exec p.1 s = .next t' ∧ rest t' u ∧
          ∀ i < n, (kindOf st.srcb = 1 → (i + 1) * w ≤ 16384) → t'.lane bay thr (idxOf st.dst % 16) i = p.2.2 i % 2 ^ 32) ∧
    (t.inside st.srcb 8 = true → w ≠ 0 → s.atStep bay thr 4 5 t →
      let f := if kindOf st.srcb = 1 ∨ kindOf st.srcb = 6 ∨ kindOf st.srcb = 7 then
        s.dev.srcBytes (thrKey bay thr) t st st.srcb 8 else leBytes 8 (t.val st st.srcb)
      ∃ t' u, exec (.laneScale bay thr none) s = .next t' ∧ rest t' u ∧
        ∀ i < n, t'.lane bay thr (idxOf st.dst % 16) i = (if laneFp st.fmt then fmul (x i) (laneFloat st.fmt f 0)
          else sat32 (toSigned 32 (x i) * laneInt st.fmt f 0)) % 2 ^ 32) ∧
    (s.atStep bay thr 4 6 t → t.inside st.srcb 0 = true → ∃ t' u, exec (.laneDot bay thr none) s = .next t' ∧ rest t' u) ∧
    let z := s.dev.srcBytes (thrKey bay thr) t st st.srcb (2 * n)
    let m := fun (fmt i j : Nat) => toSigned 32 (x i) * laneInt fmt z j
    t.inside st.srcb (2 * n) = true → ∀ p ∈ [(Instr.mac8 bay thr none, 7, fun i => m 3 i (2 * i) + m 3 i (2 * i + 1)),
        (.mac4 bay thr none, 8, fun i => m 4 i (4 * i) + m 4 i (4 * i + 1) + m 4 i (4 * i + 2) + m 4 i (4 * i + 3))],
      s.atStep bay thr 4 p.2.1 t → ∃ t' u, exec p.1 s = .next t' ∧ rest t' u ∧
        ∀ i < n, t'.lane bay thr (idxOf st.dst % 16) i = sat32 (p.2.2 i + toSigned 32 (old i))

/-- For a thread about to run the step into a vector register, its source inside its space: QUANT to INT8 or INT4
writes each FP32 element's code under the record in SRCB, packed, and to a floating-point format the element narrowed;
DEQUANT writes FP32 elements, from INT8 or INT4 codes under the record, and from a floating-point format widened. The
bytes after them keep their values. A record that is no valid one quantises to code 0 (the model's choice). -/
def Obligations.CodecStepsConvertEveryElement : Prop :=
  ∀ (s : State) bay thr t, let st := s.dev.stepAt t.step
    let n := t.active st
    let v := idxOf st.dst % 16
    let w := laneBits st.fmt
    let src := fun k => s.dev.srcBytes (thrKey bay thr) t st st.srca k
    let r := t.val st st.srcb
    kindOf st.dst = 1 → st.fmt < 5 →
    (s.atStep bay thr 5 0 t → t.inside st.srca (4 * n) = true → ∃ t' u, exec (.quant bay thr none) s = .next t' ∧
      t'.wentOn bay thr st u ∧ t'.onlyThread s bay thr ∧
      t'.dev.vget (thrKey bay thr) v 0 (ceilDiv (n * w) 8) = takeBytes (ceilDiv (n * w) 8)
        (if laneFp st.fmt then elemBytes (w / 8) ((elems 4 n (src (4 * n))).map (narrow (codecFmt st.fmt)))
        else packElems st.fmt ((elems 4 n (src (4 * n))).map fun e =>
          if badRecord r then 0 else ofSigned w (quantOne st.fmt r e false).1)) ∧
      ∀ a, ceilDiv (n * w) 8 ≤ a → a < 2048 → t'.dev.vget (thrKey bay thr) v a 1 = s.dev.vget (thrKey bay thr) v a 1) ∧
    (s.atStep bay thr 5 1 t → t.inside st.srca (ceilDiv (n * w) 8) = true → ∃ t' u, exec (.dequant bay thr none) s = .next t' ∧
      t'.wentOn bay thr st u ∧ t'.onlyThread s bay thr ∧
      ∀ i < 512, t'.lane bay thr v i = if n ≤ i then s.lane bay thr v i else
        (if laneFp st.fmt then laneFloat st.fmt (src (ceilDiv (n * w) 8)) i
        else dequant fp32 (laneInt st.fmt (src (ceilDiv (n * w) 8)) i) r) % 2 ^ 32)

/-- For a thread about to run the step: PROBE adds the row, or counts it and sets ZERO when present; DRAIN takes the
first row recorded into S[DST] and S[DST + 1], or sets ZERO. COUNT adds to the sketch as R278 says while SKETCH_EN is
1; READ completes with free bytes (the spec gives no layout, the model's choice). PQ PUSH inserts in key order, sets
PQFULL on a full queue, and leaves a node already there; POP marks and returns the first candidate not expanded, or
sets PQEMPTY; PEEK changes no queue; CLEAR empties it. COMB FLUSH with no segment of the collar changes no segment. -/
def Obligations.BayUnitStepsFollowTheirTables : Prop :=
  ∀ (s : State) bay thr t, let st := s.dev.stepAt t.step
    let k := thrKey bay thr
    let tab := (tget s.dev.coal k).getD []
    let row := t.val st st.srca
    let arg := t.val st st.srcb
    let q := (tget s.dev.pq (pqKey bay thr st)).getD []
    let ends := fun (i : Instr) (f : State → Thread → Prop) =>
      ∃ t' u, exec i s = .next t' ∧ t'.wentOn bay thr st u ∧ t'.onlyThread s bay thr ∧ t'.dev.vregs = s.dev.vregs ∧ f t' u
    let pq := fun (t' : State) => (tget t'.dev.pq (pqKey bay thr st)).getD []
    (s.atStep bay thr 6 0 t → ends (.probe bay thr none) fun t' u =>
      bit u.flags 2 = (tab.any fun e => e.row = row) ∧
      ((∀ e ∈ tab, e.row ≠ row) → tab.length < 1024 →
        tget t'.dev.coal k = some (tab ++ [{ row := row, m := 1, w := arg % 2 ^ 32 }])) ∧
      ∀ a e b, tab = a ++ e :: b → e.row = row → (∀ y ∈ a ++ b, y.row ≠ row) →
        tget t'.dev.coal k = some (a ++ { e with m := e.m + 1, w := fadd e.w (arg % 2 ^ 32) } :: b)) ∧
    (s.atStep bay thr 6 1 t → ends (.coalDrain bay thr none) fun t' u =>
      bit u.flags 2 = decide (tab = []) ∧ ∀ e r, tab = e :: r → (tget t'.dev.coal k).getD [] = r ∧
        (tget u.sreg (idxOf st.dst % 32)).getD 0 = (e.row % 2 ^ 32 + 2 ^ 32 * e.m) % 2 ^ 64 ∧
        (tget u.sreg ((idxOf st.dst + 1) % 32)).getD 0 = e.w % 2 ^ 64) ∧
    (s.atStep bay thr 8 0 t → ends (.sketchCount bay thr none) fun t' _ =>
      t'.dev.sketch = (if s.dev.rd F.RTV_CFG_SKETCH_EN = 1 then
        (s.dev.sketchAdd bay t.collar (tableKey (t.words.getD 2 0)) row (arg % 2 ^ 32)).sketch else s.dev.sketch)) ∧
    (s.atStep bay thr 8 1 t → t.inside st.dst (4 * t.active st) = true → ∃ t' u, exec (.sketchRead bay thr none) s = .next t' ∧
      t'.wentOn bay thr st u ∧ t'.onlyThread s bay thr ∧ t'.dev.sketch = s.dev.sketch) ∧
    (s.atStep bay thr 9 0 t → ends (.pqPush bay thr none) fun t' u =>
      let c : Cand := { d := row % 2 ^ 32, node := arg % 2 ^ 32, expanded := bit st.imm 3, eligible := bit st.imm 4 }
      ((∃ y ∈ q, y.node = c.node) → pq t' = q) ∧ ((∀ y ∈ q, y.node ≠ c.node) → q.length < 1024 →
        pq t' = candInsert c q ∧ bit u.flags 8 = false) ∧
      ((∀ y ∈ q, y.node ≠ c.node) → 1024 ≤ q.length → bit u.flags 8 = true ∧ ∀ l, q.getLast? = some l →
        pq t' = if keyLt c.d c.node l.d l.node then candInsert c q.dropLast else q)) ∧
    (s.atStep bay thr 9 1 t → ends (.pqPop bay thr none) fun t' u =>
      bit u.flags 9 = (q.all fun y => y.expanded) ∧ ((∀ y ∈ q, y.expanded = true) → pq t' = q ∧ u.sreg = t.sreg) ∧
      ∀ a y b, q = a ++ y :: b → (∀ z ∈ a, z.expanded = true) → y.expanded = false →
        pq t' = a ++ { y with expanded := true } :: b ∧
        (tget u.sreg (idxOf st.dst % 32)).getD 0 = (y.node + 2 ^ 32 * a.length) % 2 ^ 64) ∧
    (s.atStep bay thr 9 2 t → ends (.pqPeek bay thr none) fun t' u =>
      pq t' = q ∧ ∀ y, q[row]? = some y → (tget u.sreg (idxOf st.dst % 32)).getD 0 = (y.node + 2 ^ 32 * y.d) % 2 ^ 64) ∧
    (s.atStep bay thr 9 3 t → ends (.pqClear bay thr none) fun t' u => pq t' = [] ∧ u.sreg = t.sreg) ∧
    (s.atStep bay thr 7 1 t → (∀ b l, (b, l) ∈ s.dev.comb → ∀ x ∈ l, x.collar ≠ t.collar) →
      ∀ env, ends (.combFlush bay thr env none) fun t' u => t'.dev.comb = s.dev.comb ∧ u.latch = t.latch) ∧
    ∀ env x m r, let wh := s.dev.whoOf s.cx bay thr t
      let dty := bits st.imm 4 3
      let n := 64 / dtyBytes dty
      let es := 2 ^ x.lg
      let tva := if x.desc then x.base + x.len - (x.pos + max 1 (64 / es)) * es else x.base + x.pos * es
      s.atStep bay thr 7 0 t → tget t.strms (idxOf st.dst % 4) = some x → x.indexed = false →
      x.pos + max 1 (64 / es) ≤ x.len / es → t.inside st.srca (4 * n) = true → (reduceAop (bits st.imm 0 3) dty).isSome →
      (addrOf wh tva (needAtomic false)).run { d := s.dev, env := env } = (some m, r) → r.busy = false → r.stop = none →
      (tget r.d.comb bay).getD [] = [] → kindOf st.srcb = 0 →
      ∃ t' g, exec (.acc bay thr env none) s = .next t' ∧ tget t'.dev.comb bay = some [g] ∧ g.collar = t.collar ∧
        g.addr = m / 64 * 64 ∧ g.op = bits st.imm 0 3 ∧ g.dty = dty ∧ g.mask = 2 ^ n - 1 ∧
        g.vals = (List.range n).map fun i => combElem (bits st.imm 0 3) dty false 0
          ((elems (if dty = 1 then 8 else 4) n (s.dev.srcBytes (thrKey bay thr) t st st.srca ((if dty = 1 then 8 else 4) * n))).getD i 0)

/-- For a thread about to run the step: SEQ, IDX and BAG put into stream DST what SRCA, SRCB and IMM give, CLOSE
removes it, and no other stream changes; WAIT goes on at once when no access of its class is outstanding, and
otherwise holds the thread STALLED at its step. DONE drains the thread; when its accesses have finished and its latch
is empty, COMPLETE hands over STATUS, RESULT_A and RESULT_B, FAULT hands over SRCA[7:0] as status and no record, and
PARK hands a ROW_MIGRATE over without a completion. A latch of FORMAT makes each of them (COMPLETE at a status of 0 to
3) complete with FORMAT, FREC 0 and RESULT_A 0xFFFF_FFFF. -/
def Obligations.StreamsWaitsAndEndsOfRuns : Prop :=
  ∀ (s : State) bay thr t, let st := s.dev.stepAt t.step
    let k := strmOf st.dst
    let a := t.val st st.srca
    let b := t.val st st.srcb
    let seq : Strm := { indexed := false, base := a, len := b, desc := bit st.imm 0, write := bit st.imm 1, lg := bits st.imm 8 4 }
    let tbl : Strm := { indexed := true, base := a, len := b, stride := bits st.imm 0 20 }
    (∀ p ∈ [(Instr.strmSeq bay thr none, 0, some seq), (.strmIdx bay thr none, 1, some tbl),
        (.strmBag bay thr none, 2, (tget t.strms k).map fun (x : Strm) => { x with bag := a }), (.strmClose bay thr none, 3, none)],
      s.atStep bay thr 0xB p.2.1 t → ∃ t' u, exec p.1 s = .next t' ∧ t'.wentOn bay thr st u ∧ t'.onlyThread s bay thr ∧
        t'.sameRegs s ∧ u.sreg = t.sreg ∧ tget u.strms k = p.2.2 ∧ ∀ i, i ≠ k → tget u.strms i = tget t.strms i) ∧
    (s.atStep bay thr 0xC 0 t →
      (t.owes (bits st.imm 0 2) = false → ∃ t' u, exec (.wait bay thr none) s = .next t' ∧ t'.wentOn bay thr st u ∧
        t'.onlyThread s bay thr ∧ t'.sameRegs s ∧ u.sreg = t.sreg ∧ ∀ n ∈ accessFlags, bit u.flags n = false) ∧
      (t.owes (bits st.imm 0 2) = true → ∃ t' u, exec (.wait bay thr none) s = .next t' ∧ t'.dev.thread bay thr = some u ∧
        u.state = 2 ∧ u.step = t.step ∧ t'.onlyThread s bay thr)) ∧
    (t.accs = [] → t.res = none → t.park = false → t.discard = false →
      let rb := (tget t.sreg (st.imm % 32)).getD 0
      ∀ p ∈ [(Instr.doneComplete bay thr none, 0, (Res.mk (a % 256) 0 (b % 2 ^ 32) rb (some bay))),
          (.doneFault bay thr none, 1, Res.mk (a % 256) 0 0 0 (some bay)),
          (.donePark bay thr none, 2, Res.mk 0 0 (b % 2 ^ 32) rb (some bay))],
        s.atStep bay thr 0xD p.2.1 t → ∃ t' u, exec p.1 s = .next t' ∧ t'.dev.thread bay thr = some u ∧ u.state = 3 ∧
          (t.latch = none → p.2.1 ≠ 2 → u.res = some p.2.2 ∧ u.park = false ∧ t'.sameStore s) ∧
          (t.latch = none → p.2.1 = 2 → t.op = 0x13 → u.park = true ∧ u.res = none ∧ t'.sameStore s) ∧
          ∀ l, t.latch = some l → l.type = 0 → l.status = 0x10 → l.written = false → (p.2.1 = 0 → a % 256 ≤ 3) →
            u.res = some { p.2.2 with status := 0x10, frec := 0, ra := 0xFFFFFFFF } ∧ t'.sameStore s)

/-- For a thread that runs a descriptor of the row's opcode and mode, has nothing outstanding, and whose lines are not
busy: the row does the opcode's work, and then the thread drains. Where the work stopped at no fault, it ends with the
work's result and the accesses' effect on the store; where it stopped at one, the latch takes that fault, unless it
held one, and the run ends with its status. MOVE, MOVE_SPARSE, CONVERT, MCAST_STORE, REDUCE_REMOTE, GATHER_POOL,
SCATTER_ADD, SHARD_PROBE, SEARCH, INSERT, DELETE, MERGE, PROMOTE, DEMOTE and SHADOW; that a descriptor runs at one
instant is the model's choice. A MOVE whose source or destination is not on a line, or a RAW move of ranges that
overlap, completes with FORMAT and the word's offset, and changes no byte of the store. -/
def Obligations.DescriptorsRunWholeAndHandOver : Prop :=
  ∀ (s : State) bay thr env t, s.dev.thread bay thr = some t → t.state ≠ 3 → t.sel = false → t.accs = [] →
    let mode := fun i => bits (t.words.getD i 0) 0 2
    let src := t.words.getD 2 0
    let dst := t.words.getD 3 0
    let len := t.words.getD 5 0
    let ends := fun (i : Instr) (ra : Nat) => ∃ t' u, exec i s = .next t' ∧ t'.onlyThread s bay thr ∧ t'.sameRegs s ∧
      t'.dev.thread bay thr = some u ∧ u.state = 3 ∧ u.res = some { status := 0x10, ra := ra, bay := some bay }
    (∀ p ∈ [(Instr.moveTensor bay thr env, 0x01, mode 4 = 0, moveTensor), (.moveRaw bay thr env, 0x01, mode 4 = 1, moveRaw),
        (.moveGather bay thr env, 0x01, mode 4 = 2, moveGather),
        (.compress bay thr env, 0x02, bit (t.words.getD 4 0) 0 = false, noShadow compress),
        (.expand bay thr env, 0x02, bit (t.words.getD 4 0) 0 = true, noShadow expand),
        (.convert bay thr env, 0x03, True, convert), (.mcastStore bay thr env, 0x08, True, mcastStore),
        (.reduceRemote bay thr env, 0x09, True, reduceRemote), (.gatherPool bay thr env, 0x10, True, gatherPool),
        (.scatterAddAdd bay thr env, 0x11, mode 6 = 0, scatterAdd 0), (.requant bay thr env, 0x11, mode 6 = 1, scatterAdd 1),
        (.adagrad bay thr env, 0x11, mode 6 = 2, scatterAdd 2), (.shardProbe bay thr env, 0x12, True, shardProbe),
        (.search bay thr env, 0x18, True, search), (.insert bay thr env, 0x19, True, insertNode),
        (.delete bay thr env, 0x1A, True, deleteNode), (.merge bay thr env, 0x1B, True, mergeIndex),
        (.promote bay thr env, 0x20, True, promote), (.demote bay thr env, 0x21, True, demote),
        (.shadow bay thr env, 0x22, bit (t.words.getD 3 0) 0 = false, shadowBuild),
        (.shadowDrop bay thr env, 0x22, bit (t.words.getD 3 0) 0 = true, shadowDrop)],
      t.op = p.2.1 → p.2.2.1 → ∀ res r v, (p.2.2.2 (s.dev.whoOf s.cx bay thr t) t).run { d := s.dev, env := env } = (res, r) →
        r.busy = false → r.d.thread bay thr = some v → v.accs = [] → v.res = none → v.park = false → v.discard = false →
        ∃ t' u, exec p.1 s = .next t' ∧ t'.dev.thread bay thr = some u ∧ u.state = 3 ∧
          (r.stop = none → v.latch = none → u.res = some { res with bay := some bay } ∧ t'.dev.mem = r.d.mem) ∧
          ∀ l, r.stop = some l → v.latch = none → (∃ x, u.latch = some { l with step := t.step, written := x }) ∧
            (l.written = false → ∃ x, u.res = some x ∧ x.status = l.status)) ∧
    (t.op = 0x01 → t.res = none → t.park = false → t.discard = false → t.latch = none →
      ∀ p ∈ [(Instr.moveTensor bay thr env, 0), (.moveRaw bay thr env, 1), (.moveGather bay thr env, 2)], mode 4 = p.2 →
        (src % 64 ≠ 0 → ends p.1 0x10) ∧ (src % 64 = 0 → dst % 64 ≠ 0 → ends p.1 0x18) ∧
        (p.2 = 1 → src % 64 = 0 → dst % 64 = 0 → src < dst + len → dst < src + len → 0 < len → ends p.1 0x10))

/-- For a thread that runs a ROW_MIGRATE of the row's mode with nothing outstanding, its lines not busy: a run that
stopped at no fault and passed its checks parks, its entries pending; one that failed a check completes with FORMAT
and the word's offset. A run that stopped at a fault completes with the fault's status, and no entry of its descriptor
is left pending. A side slot not yet written is read again 1 microsecond after the last read: written, the wait ends;
after SIDE_WAIT it is given up and remembered as skipped; earlier than that nothing happens. -/
def Obligations.RowMigrationsParkOrTakeBack : Prop :=
  ∀ (s : State) bay thr env t, s.dev.thread bay thr = some t → t.state ≠ 3 →
    (t.sel = false → t.accs = [] → t.op = 0x13 →
      ∀ p ∈ [(Instr.migrate bay thr env, 0), (.release bay thr env, 1), (.drop bay thr env, 2)],
        bits (t.words.getD 5 0) 0 2 = p.2 → ∀ res r v,
        (rowMigrate p.2 (s.dev.whoOf s.cx bay thr t) t).run { d := s.dev, env := env } = (res, r) → r.busy = false →
        r.d.thread bay thr = some v → v.op = 0x13 → v.accs = [] → v.res = none → v.park = false → v.discard = false →
        v.latch = none → ∃ t' u, exec p.1 s = .next t' ∧ t'.dev.thread bay thr = some u ∧ u.state = 3 ∧
          (r.stop = none → res.status = 0x10 → u.park = false ∧ u.res = some { res with bay := some bay }) ∧
          (r.stop = none → res.status ≠ 0x10 → u.park = true ∧ u.res = none ∧ t'.dev.redir = r.d.redir ∧ t'.dev.mem = r.d.mem) ∧
          ∀ l, r.stop = some l → l.written = false → u.park = false ∧
            (∃ x, u.res = some x ∧ x.status = l.status) ∧
            ∀ k e, (k, e) ∈ t'.dev.redir → e.ring = t.ring → e.idx = t.idx → e.pending = false) ∧
    ∀ tva v first last, t.side = some (tva, v, first, last) →
      (s.tmr < last + 100 → exec (.sideSlotReread bay thr env) s = .next s) ∧
      ∀ x r, (readWord { (s.dev.whoOf s.cx bay thr t) with deadline := none } tva).run { d := s.dev, env := env } = (x, r) →
        r.busy = false → r.stop = none → last + 100 ≤ s.tmr → ∃ t' u, exec (.sideSlotReread bay thr env) s = .next t' ∧
          t'.dev.thread bay thr = some u ∧ t'.dev.mem = r.d.mem ∧
          (v ≤ x → u.side = none ∧ u.skips = t.skips) ∧
          (x < v → first + 100 * max 1 (s.dev.rd F.TRK_CFG_SIDE_WAIT) ≤ s.tmr → u.side = none ∧ v ∈ u.skips) ∧
          (x < v → s.tmr < first + 100 * max 1 (s.dev.rd F.TRK_CFG_SIDE_WAIT) → u.side = some (tva, v, first, s.tmr))

/-- DRAIN of the epoch in force starts the heel transition: phase DRAIN, every ring held; while another transition has
priority it stays wanted. With no descriptor and no segment left the member reports DRAINED. HOLD makes the homes hold
back; with no owner and nothing in progress the member reports HELD. ABORT undoes the hold at the same epoch. CUT puts
epoch F in force, empties sketches and bay state, ends the transition, counted, and changes no byte of the store; a
module in no group ends there. With every delta answered the member reports SHIPPED. COMMIT makes E the last committed
heel and discards its undo. -/
def Obligations.MembersRunTheStepsOfAHeel : Prop :=
  ∀ (s : State) src e f env, let lead := s.dev.rd F.EPC_STAT_LEADER_NODE
    let epoch := s.dev.rd F.EPC_EPOCH_EPOCH
    (e = epoch → s.dev.inGroup = true → s.dev.heelStep = 0 → (∀ r ∈ s.dev.running, r.tr ≠ .heel) →
      ((s.dev.want .heel).canStart .heel = true → ∃ t, exec (.heelDrain src e) s = .next t ∧ t.dev.runs .heel = true ∧
        t.dev.heelStep = 1 ∧ t.dev.heelHold = true ∧ t.dev.rd F.EPC_STAT_PHASE = 1 ∧ t.sameStore s) ∧
      ((s.dev.want .heel).canStart .heel = false → exec (.heelDrain src e) s = .next (s.withDev (s.dev.want .heel)))) ∧
    (e ≠ epoch → ∀ i ∈ [Instr.heelDrain src e, .heelHold src e env, .heelAbort src e, .heelCut src e f []], exec i s = .next s) ∧
    (s.dev.runs .heel = true → s.drained →
      (s.dev.heelStep = 1 → s.dev.inGroup = true → ∃ t, exec (.memberDrainEnd env) s = .next t ∧ t.dev.heelStep = 2 ∧
        t.dev.out = s.dev.out ++ [s.heelTo 1 epoch 0 0 lead] ∧ t.sameStore s) ∧
      (s.dev.heelStep = 2 → e = epoch → ∃ t, exec (.heelHold src e env) s = .next t ∧ t.dev.heelStep = 3 ∧ t.dev.hold = 1 ∧
        t.dev.rd F.EPC_STAT_PHASE = 2 ∧ t.sameStore s) ∧
      (s.dev.heelStep = 3 → s.dev.inGroup = true → ∃ t, exec (.memberHoldEnd env) s = .next t ∧ t.dev.heelStep = 4 ∧
        t.dev.out = s.dev.out ++ [s.heelTo 3 epoch 0 0 lead] ∧ t.sameStore s) ∧
      (s.dev.heelStep = 3 ∨ s.dev.heelStep = 4 → e = epoch → ∃ t, exec (.heelAbort src e) s = .next t ∧ t.dev.hold = 0 ∧
        t.dev.heelStep = 2 ∧ t.dev.rd F.EPC_EPOCH_EPOCH = epoch ∧ t.dev.rd F.EPC_STAT_PHASE = 1 ∧ t.sameStore s) ∧
      (s.dev.heelStep = 4 → e = epoch → ∃ t, exec (.heelCut src e f []) s = .next t ∧ t.dev.mem = s.dev.mem ∧ t.dev.hold = 0 ∧
        t.dev.rd F.EPC_EPOCH_EPOCH = (if s.dev.inGroup then f % 2 ^ F.EPC_EPOCH_EPOCH.w else 0) ∧
        t.dev.sketch = [] ∧ t.dev.scratch = [] ∧ t.dev.heelHold = false ∧ (∀ r ∈ t.dev.running, r.tr ≠ .heel) ∧
        (if s.dev.inGroup then t.dev.heelStep = 5 ∧ t.dev.shipE = some e ∧ t.dev.rd F.EPC_STAT_PHASE = 3
        else t.dev.heelStep = 0 ∧ t.dev.rd F.EPC_STAT_PHASE = 0))) ∧
    (s.dev.shipE = some e → s.dev.heelStep = 5 → (∀ r ∈ s.dev.reqs, r.purpose ≠ .delta) → (∀ u ∈ s.dev.undo, u.lost = false) →
      ∃ t, exec .memberShipEnd s = .next t ∧ t.dev.heelStep = 6 ∧ t.dev.out = s.dev.out ++ [s.heelTo 5 e 0 0 lead]) ∧
    (s.dev.shipE ≠ some e → exec (.heelCommit src e) s = .next s) ∧
    (s.dev.shipE = some e → s.dev.groupDue = false → ∃ t, exec (.heelCommit src e) s = .next t ∧ t.dev.heelStep = 0 ∧
      t.dev.shipE = none ∧ t.dev.undo = s.dev.undo.filter (fun u => e < u.epoch) ∧ t.sameStore s ∧
      t.dev.rd F.EPC_LAST_LAST = e % 2 ^ F.EPC_LAST_LAST.w ∧ t.dev.rd F.EPC_STAT_PHASE = 0 ∧
      t.dev.rd F.EPC_CNT_HEELS = min (s.dev.rd F.EPC_CNT_HEELS + 1) (2 ^ F.EPC_CNT_HEELS.w - 1))

/-- A leader that was asked for a heel, with no heel, rollback or range out, sends DRAIN(E) to every present member.
When the last present member reports DRAINED, HELD or SHIPPED of its heel, it sends HOLD(E), CUT(E, F) with F above
every epoch seen, and the heel record to the keepers; a report of another heel or step changes nothing. Without HELD
within the hold limit it sends ABORT(E), and HOLD(E) again 1 ms later. A BEACON of a member is noted. Every 1 ms a
beacon goes to each partner; not earlier. A member silent for less than LOSS_TIME is not proposed as lost. -/
def Obligations.TheLeaderRunsAHeelStepByStep : Prop :=
  ∀ (s : State) src e, let epoch := s.dev.rd F.EPC_EPOCH_EPOCH
    (s.dev.rd F.EPC_STAT_LEADER = 1 → s.dev.heelAsked = true → s.dev.heelLead = none → s.dev.shipE = none →
      s.dev.rollLead = none → s.dev.rd F.EPC_EPOCH_WAIT = 0 → s.dev.rebOut = [] → ∃ t, exec .heelStart s = .next t ∧
        t.dev.heelAsked = false ∧ t.dev.heelLead = some { e := epoch, since := s.tmr } ∧
        t.dev.out = s.dev.out ++ s.heelToAll 0 epoch 0 0 ∧ t.sameStore s) ∧
    (s.dev.heelAsked = false → exec .heelStart s = .next s) ∧
    (∀ h, s.dev.heelLead = some h →
      let all := ∀ n ∈ s.dev.present, n = src ∨ n ∈ h.got
      let seen := max s.dev.epochSeen e + 1
      (h.e = e → h.step = 1 → all → ∃ t, exec (.heelDrained src e) s = .next t ∧
        t.dev.heelLead = some { h with step := 2, since := s.tmr, got := [] } ∧
        t.dev.out = s.dev.out ++ s.heelToAll 2 e 0 0) ∧
      (h.e = e → h.step = 2 → all → ∃ t, exec (.heelHeld src e) s = .next t ∧ t.dev.epochSeen = seen ∧
        t.dev.heelLead = some { h with step := 3, since := s.tmr, got := [], f := seen } ∧
        t.dev.out = s.dev.out ++ s.heelToAll 4 e seen 0) ∧
      (h.e = e → h.step = 3 → all → ∃ t, exec (.heelShipped src e) s = .next t ∧
        t.dev.heelLead = some { h with step := 4, since := s.tmr, got := [] }) ∧
      (∀ p ∈ [(Instr.heelDrained src e, 1), (.heelHeld src e, 2), (.heelShipped src e, 3)],
        (h.e ≠ e ∨ h.step ≠ p.2 → exec p.1 s = .next s) ∧
        (h.e = e → h.step = p.2 → ¬all → exec p.1 s = .next (s.withDev
          { s.dev with heelLead := some { h with got := sadd h.got src } }))) ∧
      (h.step = 2 → h.since + s.dev.holdLimit ≤ s.tmr → ∃ t, exec .heelHoldLimit s = .next t ∧
        t.dev.heelLead = some { h with step := 5, since := s.tmr, got := [] } ∧
        t.dev.out = s.dev.out ++ s.heelToAll 7 h.e 0 0) ∧
      (h.step = 5 → h.since + 100000 ≤ s.tmr → ∃ t, exec .heelHoldLimit s = .next t ∧
        t.dev.heelLead = some { h with step := 2, since := s.tmr, got := [] } ∧
        t.dev.out = s.dev.out ++ s.heelToAll 2 h.e 0 0) ∧
      (h.step = 2 → s.tmr < h.since + s.dev.holdLimit → exec .heelHoldLimit s = .next s)) ∧
    (∀ ep last, s.dev.inGroup = true → src ∈ s.dev.grpNodes → ∃ t, exec (.beacon src ep last) s = .next t ∧
      tget t.dev.beats src = some s.tmr ∧ tget t.dev.missed src = none ∧ t.dev.epochSeen = max s.dev.epochSeen ep ∧
      (s.dev.synced = true → t.dev.rd F.EPC_EPOCH_EPOCH = epoch)) ∧
    (s.tmr < s.dev.beatAt + 100000 → exec .beaconTimer s = .next s) ∧
    (s.dev.inGroup = true → s.dev.beatAt + 100000 ≤ s.tmr → s.dev.lostFor = 0 → s.dev.rd F.RAS_STAT_MSTATE ≠ 1 →
      s.dev.rd F.EPC_STAT_LEADER = 0 → ∀ x, tget s.dev.beats (s.dev.rd F.EPC_STAT_LEADER_NODE) = some x → s.dev.beatAt ≤ x →
      ∃ t, exec .beaconTimer s = .next t ∧ t.dev.beatAt = s.tmr ∧ 
        t.dev.out = s.dev.out ++ [s.beaconTo (s.dev.rd F.EPC_STAT_LEADER_NODE)]) ∧
    ∀ node, (s.tmr < (tget s.dev.beats node).getD 0 + s.dev.lossMs * 100000 → exec (.memberLossTime node) s = .next s) ∧
      (s.dev.rd F.EPC_STAT_LEADER ≠ 0 → node ∈ s.dev.present → node ≠ s.dev.rd F.MAP_NODE_NODE →
        (tget s.dev.beats node).getD 0 + s.dev.lossMs * 100000 ≤ s.tmr →
        exec (.memberLossTime node) s = .next (s.withDev (s.dev.propose (.lost node))))

/-- ROLLBACK(R) starts the rollback transition when nothing of priority stands against it: phase ROLLBACK, WAIT 1, its
cause shown, counted; threads, cached translations, directory entries and modified copies are gone, the homes hold
everything, and every page with one undo entry has its bytes again. When the copies have been given up the member
reports ROLLED. The leader sends RESUME(F), F above every epoch reported, when every present member has. RESUME puts
epoch F in force and ends the transition. An offered object of a later generation is taken and acknowledged, an older
one ignored; an ACK ends the sender's copy; an offer unanswered for 10 ms goes out again. -/
def Obligations.RollbacksRestoreTheLastHeel : Prop :=
  ∀ (s : State) src r cause f, let lead := s.dev.rd F.EPC_STAT_LEADER_NODE
    (s.dev.inGroup = true → (∀ x ∈ s.dev.running, x.tr.prio ≠ 1 ∧ x.tr.prio ≠ 2) →
      (s.dev.want (.rollback cause)).canStart (.rollback cause) = true → s.dev.shipE = none →
      ∃ t, exec (.heelRollback src r cause []) s = .next t ∧ t.dev.rd F.EPC_EPOCH_WAIT = 1 ∧ t.dev.rd F.EPC_STAT_PHASE = 4 ∧
        t.dev.rd F.EPC_STAT_CAUSE = cause % 2 ^ F.EPC_STAT_CAUSE.w ∧ t.dev.runs (.rollback cause) = true ∧
        t.dev.rd F.EPC_CNT_ROLLBACKS = min (s.dev.rd F.EPC_CNT_ROLLBACKS + 1) (2 ^ F.EPC_CNT_ROLLBACKS.w - 1) ∧
        t.dev.threads = [] ∧ t.dev.bayTlb = [] ∧ t.dev.shrTlb = [] ∧ t.dev.dir = [] ∧ t.dev.hold = 2 ∧ t.dev.heelStep = 7 ∧
        (∀ a, (∀ u ∈ s.dev.undo, u.page ≠ a / 4096) → t.dev.byte a = s.dev.byte a) ∧
        ∀ u ∈ s.dev.undo, (∀ v ∈ s.dev.undo, v.page = u.page → v = u) → u.lost = false → u.scrubbed = false → Memory.wf u.pre →
          ∀ i < 4096, t.dev.byte (u.page * 4096 + i) = (tget u.pre i).getD 0) ∧
    (s.dev.inGroup = false → exec (.heelRollback src r cause []) s = .next s) ∧
    (s.dev.rd F.EPC_EPOCH_WAIT = 1 → s.dev.heelStep = 7 →
      (s.dev.victims ≠ [] → exec .rollbackRestoreEnd s = .next s) ∧
      (s.dev.victims = [] → ∃ t, exec .rollbackRestoreEnd s = .next t ∧ t.dev.heelStep = 8 ∧ t.sameStore s ∧ t.dev.out =
        s.dev.out ++ [s.heelTo 9 (max s.dev.epochSeen (s.dev.rd F.EPC_EPOCH_EPOCH)) 0 0 lead])) ∧
    (∀ seen l, s.dev.rollLead = some l → let got := tset l.got src seen
      ((∃ n ∈ s.dev.present, tget got n = none) → exec (.heelRolled src seen) s =
        .next (s.withDev { s.dev with rollLead := some { l with got := got } })) ∧
      ((∀ n ∈ s.dev.present, tget got n ≠ none) → ∃ t x, exec (.heelRolled src seen) s = .next t ∧ t.dev.rollLead = none ∧
        (∀ n y, (n, y) ∈ got → y < x) ∧ s.dev.epochSeen < x ∧ t.dev.epochSeen = x ∧
        t.dev.out = s.dev.out ++ s.heelToAll 10 0 x 0)) ∧
    (s.dev.rd F.EPC_EPOCH_WAIT = 1 → s.dev.heelStep = 8 → (∀ x ∈ s.dev.running, x.tr.prio ≠ 1) → s.dev.groupDue = false →
      s.dev.held = [] → ∃ t, exec (.heelResume src f) s = .next t ∧ t.dev.rd F.EPC_EPOCH_EPOCH = f % 2 ^ F.EPC_EPOCH_EPOCH.w ∧
        t.dev.rd F.EPC_EPOCH_WAIT = 0 ∧ t.dev.rd F.EPC_STAT_PHASE = 0 ∧ t.dev.hold = 0 ∧ t.dev.heelStep = 0 ∧ t.sameStore s) ∧
    (∀ kind object gen, kind ≤ 3 → let key := handKey kind (object % 2 ^ 32)
      (gen ≤ (tget s.dev.gens key).getD 0 → exec (.offer src kind object gen) s = .next s) ∧
      ((tget s.dev.gens key).getD 0 < gen → ∃ t more, exec (.offer src kind object gen) s = .next t ∧ t.sameStore s ∧
        t.dev.out = s.dev.out ++ .msg { mtype := 0x3A, dst := src, src := s.dev.rd F.MAP_NODE_NODE, attr := 1,
                                        param := kind + 2 ^ 4 * (object % 2 ^ 32) + 2 ^ 64 * gen } :: more ∧
        (kind = 2 → t.dev.rd F.EPC_STAT_LEADER = 1)) ∧
      exec (.handAck src kind object gen) s = .next (s.withDev { s.dev with handing := s.dev.handing.filter fun (h : Handed) =>
        !(h.dst = src && h.kind = kind && h.object = object && h.gen = gen) })) ∧
    ∀ kind object h, (s.dev.handing.find? fun (h : Handed) => h.kind = kind && h.object = object) = some h →
      (s.tmr < h.since + 1000000 → exec (.handoffTimeout kind object) s = .next s) ∧
      (h.since + 1000000 ≤ s.tmr → (∃ m ∈ s.dev.map.modules, m.node = h.dst) →
        exec (.handoffTimeout kind object) s = .next (s.withDev (s.dev.offer s.cx kind object h.dst)))

/-- At a parity holder a delta from a pack member, its page captured and not to be rebuilt, is added into P, or into Q
times g to the power i, and answered OK; no other byte changes; a sender outside the pack is answered DENIED and
changes none. REBUILD_RD answers the block as of heel R, with ZERO alone when it is all zero, or POISON. REBUILD_DATA
of a block still short of sources is kept; data nothing asked for changes nothing. The end of a range counts it, frees
what was kept of it and hands it back to the leader. -/
def Obligations.ParityAndRebuildFollowTheCode : Prop :=
  ∀ (s : State) (h : Hdr) epoch i data r,
    let off := bits h.off 0 47 / 256 * 256
    let g := off / 4096 / 262144
    let n := s.dev.packN
    let q := s.dev.reqs.find? fun (r : Req) => r.tag = h.tag && r.dst = h.src && r.purpose = .rebuild
    let b := s.dev.blockAt r off
    (s.dev.packMember h.src = false → ∃ t, exec (.parityDelta h epoch i data none) s = .next t ∧ t.sameStore s ∧
      t.dev.out = s.dev.out ++ [s.cmpOf h 1]) ∧
    (∀ d, s.dev.packMember h.src = true → s.dev.parityGiB g = true → s.dev.needsRebuild s.variant (off / 4096) = false →
      s.dev.capture s.cx (off / 4096) epoch true = (d, true) → ∃ t, exec (.parityDelta h epoch i data none) s = .next t ∧
        (∀ a, t.dev.byte a = if a < off ∨ off + 256 ≤ a then s.dev.byte a else
          s.dev.byte a ^^^ (if s.dev.rd F.PAK_CFG_POS = holderP n g then data.getD (a - off) 0
            else BitVec.ofNat 8 (gfMul (gfPow (i % 16)) (data.getD (a - off) 0).toNat))) ∧
        ∃ more, t.dev.out = s.dev.out ++ more ++ [s.cmpOf h 0]) ∧
    (exec (.rebuildRd h r) s = .next (s.withDev (s.dev.emit (.msg
        { mtype := 0x42, dst := h.src, src := s.dev.rd F.MAP_NODE_NODE, tag := h.tag, off := h.off,
          status := if b = [] then 3 else 0, attr := if b ≠ [] ∧ ∀ x ∈ b, x = 0 then 1 else 0,
          payload := if ∀ x ∈ b, x = 0 then [] else b })))) ∧
    (∀ zero status,
      (q = none → exec (.rebuildData h zero status data) s = .next s) ∧
      ∀ x p, q = some x →
        ((List.range 16).find? fun p => s.dev.rd F.PAK_MEMB_PV p = 1 && s.dev.rd F.PAK_MEMB_NODE p = h.src) = some p →
        let blk := bits x.addr 0 47 / 256
        (s.dev.sources (blk / 16 / 262144) (s.dev.rd F.PAK_CFG_POS)).getD [] ≠ [] →
        (∃ b < 16, b ≠ blk % 16 ∧ tget s.dev.rebGot (blk / 16 * 16 + b) = none) →
        ∃ t, exec (.rebuildData h zero status data) s = .next t ∧ t.sameStore s ∧ t.dev.reqs = s.dev.reqs.filter (· ≠ x) ∧
          tget t.dev.rebGot blk = some (((tget s.dev.rebGot blk).getD []).filter (fun y => y.1 ≠ p) ++
            [(p, if status ≠ 0 then [] else if zero then List.replicate 256 0 else takeBytes 256 data)])) ∧
    (s.dev.rebMine = none → exec (.rebuildRangeEnd []) s = .next s) ∧
    ∀ m, s.dev.rebMine = some m → s.dev.rd F.PAK_RBLD_ACTIVE ≠ 0 →
      (s.dev.sources m (s.dev.rd F.PAK_CFG_POS)).isSome = true → s.dev.fills = [] →
      let done := planIndex n (s.dev.rd F.PAK_CFG_POS) s.variant.storeGiB m + 1
      done < s.variant.storeGiB → ∃ t, exec (.rebuildRangeEnd []) s = .next t ∧ t.sameStore s ∧ t.dev.rebMine = none ∧
        t.dev.rd F.PAK_RBLD_DONE = done % 2 ^ F.PAK_RBLD_DONE.w ∧
        t.dev.rebPages = s.dev.rebPages.filter (fun p => p / 262144 ≠ m)

/-- For a function whose TDI is not locked, by PF0 while the port is up: FLR of an ENABLED function asks for its
quiesce with PENDING_ENABLE, and of a DISABLED one clears its leftovers at once; an enable of a DISABLED function that
passes the checks of R395 makes it ENABLED, and one that fails only sets FN_CTL.ERR; a disable asks for the quiesce
without PENDING_ENABLE. The transition controller starts the quiesce: QUIESCING, every ring of it held. When none of
its descriptors is left, QUIESCE_DRAIN_END ends it, counted, with the function's leashes zeroed: DISABLED with its
rings, or ENABLED again when that is pending and still allowed. -/
def Obligations.FunctionsEnableQuiesceAndDisable : Prop :=
  ∀ (s : State) f, f ≤ 512 →
    (s.dev.pf0Up = true → s.dev.tdiLocked f = false → s.dev.quiescing f = false →
      (s.dev.rd F.FN_STAT_STATE f = 1 →
        (∃ t, exec (.flr f) s = .next t ∧ t.dev.wanted = s.dev.wanted ++ [.quiesce f] ∧
          t.dev.rd F.FN_STAT_PENDING_ENABLE f = 1 ∧ t.dev.rd F.FN_STAT_STATE f = 1) ∧
        ∃ t, exec (.functionDisable f) s = .next t ∧ t.dev.wanted = s.dev.wanted ++ [.quiesce f] ∧
          t.dev.rd F.FN_STAT_PENDING_ENABLE f = 0 ∧ t.dev.rd F.FN_CTL_EN f = 0) ∧
      (s.dev.rd F.FN_STAT_STATE f = 0 → exec (.flr f) s = .next (s.withDev (s.dev.quiesceState f)) ∧
        ∃ t, exec (.functionEnable f) s = .next t ∧
          (if s.dev.enableErr f = 0 then t.dev.rd F.FN_STAT_STATE f = 1 ∧ t.dev.rd F.FN_CTL_EN f = 1
          else t = s.withDev (s.dev.wr F.FN_CTL_ERR f (s.dev.enableErr f))))) ∧
    (s.dev.canStart (.quiesce f) = true →
      (∃ t, exec (.quiesce f) s = .next t ∧ t.dev.runs (.quiesce f) = true ∧ t.dev.rd F.FN_STAT_STATE f = 2) ∧
      (s.dev.jobs = [] → ∃ t, exec (.quiesce f) s = .next t ∧
        ∀ r ∈ s.dev.ringsOf f, bit (t.dev.rd F.RNG_HOLD_HOLD r) 8 = true)) ∧
    (s.dev.runs (.quiesce f) = true → (∀ j ∈ s.dev.jobs, s.dev.ringFn j.ring ≠ f) →
      ∃ t, exec (.quiesceDrainEnd f) s = .next t ∧ t.dev.runs (.quiesce f) = false ∧
        t.dev.rd F.SYS_XSTAT_DONE_COUNT = (s.dev.rd F.SYS_XSTAT_DONE_COUNT + 1) % 2 ^ F.SYS_XSTAT_DONE_COUNT.w ∧
        t.dev.rd F.LSHF_TOK_BAL f = 0 ∧ t.dev.rd F.FN_STAT_PENDING_ENABLE f = 0 ∧
        (s.dev.rd F.FN_STAT_PENDING_ENABLE f = 0 → t.dev.rd F.FN_STAT_STATE f = 0 ∧ t.dev.rd F.FN_CTL_EN f = 0 ∧
          ∀ r ∈ s.dev.ringsOf f, s.dev.rd F.RNG_CTL_STATE r ≠ 3 → t.dev.rd F.RNG_CTL_STATE r = 0) ∧
        (s.dev.rd F.FN_STAT_PENDING_ENABLE f = 1 → (s.dev.quiesceState f).enableErr f = 0 →
          t.dev.rd F.FN_STAT_STATE f = 1 ∧ t.dev.rd F.FN_CTL_EN f = 1))

/-- By PF0 while the port is up, for a ring whose function's TDI is not locked: RING_BIND of a group of DISABLED rings
stores collar, local group and BOUND; an enable that passes every check makes the ring ACTIVE with its four counts 0
and no hold (QUIESCE alone while the function is not ENABLED), one that fails only sets ERR, to 3 when a FABRIC base
of rings whose sizes and extents are allowed names the module's own node or another module of its region, so no ring
lies there; EN = 0 of an ACTIVE or HALTED ring asks for its reset. The controller starts the reset: RESETTING and
held. With no descriptor of it left, the reset ends DISABLED without holds, its counts readable. A ring without a
completion for RINGWD, with something outstanding, asks for a ring reset. -/
def Obligations.RingsBindEnableAndReset : Prop :=
  ∀ (s : State) r, r < 4096 →
    (s.dev.pf0Up = true → (s.dev.rd F.RNG_BIND_BOUND (r / 8 * 8) = 1 → s.dev.tdiLocked (s.dev.ringFn r) = false) →
      (∀ col lg bound, r % 8 = 0 → (∀ i < 8, s.dev.rd F.RNG_CTL_STATE (r + i) = 0) → col ≤ 512 → lg < 8 →
        ((s.dev.instances F.RNG_BIND_BOUND).any fun g => g ≠ r && s.dev.rd F.RNG_BIND_BOUND g = 1 &&
          s.dev.rd F.RNG_BIND_COLLAR g = col && s.dev.rd F.RNG_BIND_LGROUP g = lg) = false →
        ∃ t, exec (.ringBind r col lg bound) s = .next t ∧ t.dev.rd F.RNG_BIND_COLLAR r = col ∧
          t.dev.rd F.RNG_BIND_LGROUP r = lg ∧ t.dev.rd F.RNG_BIND_BOUND r = (if bound then 1 else 0) ∧
          t.dev.rd F.RNG_BIND_ERR r = 0) ∧
      (s.dev.rd F.RNG_CTL_STATE r = 0 → ∃ t, exec (.ringEnable r) s = .next t ∧
        (if s.dev.ringErr r = 0 then
          t.dev.rd F.RNG_CTL_STATE r = 1 ∧ t.dev.rd F.RNG_CTL_EN r = 1 ∧ t.dev.rd F.RNG_PTR_FETCH r = 0 ∧
            t.dev.rd F.RNG_PTR_TAIL r = 0 ∧ t.dev.rd F.RNG_CPTR_CTAIL r = 0 ∧ t.dev.rd F.RNG_CPTR_CHEAD r = 0 ∧
            t.dev.rd F.RNG_HOLD_HOLD r = (if s.dev.rd F.FN_STAT_STATE (s.dev.ringFn r) = 1 then 0 else quiesceHold)
        else t = s.withDev (s.dev.wr F.RNG_CTL_ERR r (s.dev.ringErr r))) ∧
        (let own := fun n => n = s.dev.rd F.MAP_NODE_NODE ∨ ∃ m ∈ s.dev.map.modules, m.node = n
         let fits := fun size place base n => 6 ≤ s.dev.rd size r ∧ s.dev.rd size r ≤ 16 ∧
           ringFits (s.dev.rd place r = 1) (s.dev.rd base r * 4096) (n * 2 ^ s.dev.rd size r) = true
         fits F.RNG_CTL_SIZE F.RNG_CTL_PLACE F.RNG_DBASE_ADDR 64 → fits F.RNG_CTL_CSIZE F.RNG_CTL_CPLACE F.RNG_CBASE_ADDR 32 →
         s.dev.rd F.RNG_CTL_PLACE r = 1 ∧ own (s.dev.rd F.RNG_DBASE_ADDR r * 4096 / 2 ^ 50) ∨
           s.dev.rd F.RNG_CTL_CPLACE r = 1 ∧ own (s.dev.rd F.RNG_CBASE_ADDR r * 4096 / 2 ^ 50) →
         exec (.ringEnable r) s = .next (s.withDev (s.dev.wr F.RNG_CTL_ERR r 3)))) ∧
      (s.dev.rd F.RNG_CTL_STATE r = 1 ∨ s.dev.rd F.RNG_CTL_STATE r = 2 → ∃ t, exec (.ringResetRequest r) s = .next t ∧
        t.dev.rd F.RNG_CTL_EN r = 0 ∧ .ringReset r ∈ t.dev.wanted)) ∧
    (s.dev.canStart (.ringReset r) = true → s.dev.rd F.RNG_CTL_STATE r ≠ 0 → s.dev.jobs = [] →
      ∃ t, exec (.ringReset r) s = .next t ∧ t.dev.runs (.ringReset r) = true ∧ t.dev.rd F.RNG_CTL_STATE r = 3 ∧
        bit (t.dev.rd F.RNG_HOLD_HOLD r) 8 = true) ∧
    (s.dev.runs (.ringReset r) = true → (∀ j ∈ s.dev.jobs, j.ring ≠ r) →
      ∃ t, exec (.ringResetDrainEnd r) s = .next t ∧ t.dev.runs (.ringReset r) = false ∧ t.dev.rd F.RNG_CTL_STATE r = 0 ∧
        t.dev.rd F.RNG_CTL_EN r = 0 ∧ t.dev.rd F.RNG_HOLD_HOLD r = 0 ∧
        t.dev.rd F.RNG_PTR_FETCH r = s.dev.rd F.RNG_PTR_FETCH r ∧ t.dev.rd F.RNG_CPTR_CTAIL r = s.dev.rd F.RNG_CPTR_CTAIL r) ∧
    ((s.dev.watched r).isEmpty = false → (tget s.dev.lastCpl r).getD 0 + 100000 * s.dev.rd F.RAS_CFG_RINGWD ≤ s.tmr →
      (s.dev.rd F.RNG_CTL_STATE r = 1 ∨ s.dev.rd F.RNG_CTL_STATE r = 2) → .ringReset r ∉ s.dev.wanted →
      ∃ t, exec (.ringProgressWatchdog r) s = .next t ∧ .ringReset r ∈ t.dev.wanted)

/-- POWER_ON of a module without power answers a next state with TMR at 0 and LOCK clear, however far start-up comes;
when step 1 ends, the always-on domain is on, SYS_STRAP holds the straps, PWR_CAP.LIMIT is the design power and step 2
runs. The end of step 4 switches on every domain of a present resource, locks every PLL and takes the links DOWN. The
end of step 5 puts the root of trust in service, asserts power-good and draws DRM_SALT (a free value). The end of step
7 with no save and no stored map gives PHASE = BRINGUP and EPC_LAST as the keepers report it. That start-up is divided
into commands with a reach, and the state kept between them, is the model's choice. -/
def Obligations.StartupRunsInTheOrderOfR546 : Prop :=
  (∀ (s : State) mfg slot recov reach sigs rep, s.dev.aon = false →
    ∃ t, exec (.powerOn mfg slot recov reach sigs rep) s = .next t ∧ t.tmr = 0 ∧ t.lock = false) ∧
  (∀ (s : State) mfg slot recov sigs rep, s.dev.aon = false →
    ∃ t, exec (.powerOn mfg slot recov 1 sigs rep) s = .next t ∧ t.dev.aon = true ∧ t.dev.upStep = 2 ∧
      t.dev.rd F.PWR_SEQ_PHASE = 0 ∧ t.dev.rd F.SYS_STRAP_SLOTID = slot % 64 ∧
      t.dev.rd F.SYS_STRAP_RECOVERY = (if recov then 1 else 0) ∧ t.dev.rd F.PWR_CAP_LIMIT = s.variant.designPower) ∧
  (∀ (s : State) mfg slot recov sigs rep, s.dev.aon = true → s.dev.upStep = 4 →
    ∃ t, exec (.powerOn mfg slot recov 4 sigs rep) s = .next t ∧ t.dev.upStep = 5 ∧ t.dev.rd F.PWR_SEQ_PHASE = 2 ∧
      (∀ k < 112, domPresent s.variant k = true → t.dev.rd F.PWR_DCTL_STATE k = 1) ∧
      (∀ i < s.variant.links, t.dev.rd F.LNK_STAT_STATE i = 1) ∧ t.dev.rd F.CLK_STAT_LOCK = plls s.variant ∧
      t.tmr = s.tmr ∧ t.lock = s.lock) ∧
  (∀ (s : State) mfg slot recov sigs rep, s.dev.aon = true → s.dev.upStep = 5 →
    ∃ t, exec (.powerOn mfg slot recov 5 sigs rep) s = .next t ∧ t.dev.upStep = 6 ∧ t.dev.rd F.PWR_SEQ_PHASE = 3 ∧
      t.dev.rtp = 1 ∧ t.dev.pwrgd = true ∧
      t.dev.rd F.DRM_SALT_SALT = Config.freeValue s.dev.fresh % 2 ^ F.DRM_SALT_SALT.w) ∧
  ∀ (s : State) mfg slot recov sigs rep, s.dev.aon = true → s.dev.upStep = 7 → s.dev.offStep = 0 → s.dev.save = none →
    s.dev.stored = none →
    ∃ t, exec (.powerOn mfg slot recov 7 sigs rep) s = .next t ∧ t.dev.upStep = 0 ∧ t.dev.rd F.PWR_SEQ_PHASE = 5 ∧
      t.dev.rd F.EPC_LAST_LAST = (match rep with | some (e, _) => e % 2 ^ F.EPC_LAST_LAST.w | none => 0)

/-- STARTUP_STEP_LIMIT of a step that has exceeded its limit, PROTECTIVE_SHUTDOWN and THERMAL_TRIP switch off every
switched domain, take power-good away and set OFFCAUSE (5 for a step limit; 2 or 3 by the side of the range; 4 for a
trip), and the always-on domain stays up; a step limit raises the alert of R546 and a trip is latched. INPUT_REMOVAL
takes the always-on domain down too and unlatches a trip. After a protective shutdown INPUT_RECOVERY starts again from
step 2, LOCK clear and TMR counting on; from any other state it changes nothing. PHASE = OFF_FAULT after a shutdown or
a trip is deduced from the table of R546, as the assumption log says. -/
def Obligations.StopsSwitchEveryDomainOff : Prop :=
  (∀ s : State, s.dev.aon = true → s.dev.upStep ≠ 0 → s.dev.rtp ≠ 2 → s.dev.upAt + s.dev.upLimit s.variant < s.tmr →
    ∃ t, exec .startupStepLimit s = .next t ∧ t.dev.rd F.PWR_SEQ_PHASE = 9 ∧ t.dev.rd F.PWR_SEQ_OFFCAUSE = 5 ∧
      bit t.dev.alerts 6 = true ∧ t.dev.aon = true ∧ t.dev.pwrgd = false ∧ ∀ k < 112, t.dev.domState k = 0) ∧
  (∀ (s : State) (high : Bool), s.dev.aon = true → s.dev.rd F.PWR_SEQ_PHASE < 8 →
    ∃ t, exec (.protectiveShutdown high) s = .next t ∧ t.dev.rd F.PWR_SEQ_PHASE = 9 ∧
      t.dev.rd F.PWR_SEQ_OFFCAUSE = (if high then 3 else 2) ∧ t.dev.save = s.dev.save ∧ t.dev.aon = true ∧
      t.dev.pwrgd = false ∧ ∀ k < 112, t.dev.domState k = 0) ∧
  (∀ (s : State) (n : Nat), s.dev.aon = true → n < 36 → sensorPresent s.variant n = true →
    ∃ t, exec (.thermalTrip n) s = .next t ∧ t.dev.tripped = true ∧ t.dev.rd F.PWR_SEQ_OFFCAUSE = 4 ∧ t.dev.aon = true ∧
      t.dev.pwrgd = false ∧ ∀ k < 112, t.dev.domState k = 0) ∧
  (∀ s : State, s.dev.aon = true →
    ∃ t, exec .inputRemoval s = .next t ∧ t.dev.tripped = false ∧ t.dev.pwrgd = false ∧ t.dev.save = s.dev.save ∧
      t.dev.bootFlash = s.dev.bootFlash ∧ ∀ k ≤ 112, t.dev.domState k = 0) ∧
  (∀ (s : State) sigs rep, s.dev.aon = true → s.dev.rd F.PWR_SEQ_PHASE = 9 →
    (s.dev.rd F.PWR_SEQ_OFFCAUSE = 2 ∨ s.dev.rd F.PWR_SEQ_OFFCAUSE = 3) →
    ∃ t, exec (.inputRecovery 2 sigs rep) s = .next t ∧ t.lock = false ∧ t.tmr = s.tmr ∧ t.dev.upStep = 3 ∧
      t.dev.rd F.PWR_SEQ_PHASE = 1 ∧ t.dev.rd F.RAS_STAT_MSTATE = 1) ∧
  ∀ (s : State) reach sigs rep, s.dev.rd F.PWR_SEQ_PHASE ≠ 9 → exec (.inputRecovery reach sigs rep) s = .next s

/-- ORDERLY_POWER_DOWN of a module in service sets PHASE = POWERDOWN and its step 1 begins; before the end of step 7
of start-up the request waits and nothing else changes. POWER_DOWN_QUIET_LIMIT ends step 2 once 500 ms are over, by
the recall of step 3, and does nothing before. When nothing is in flight and the directory is empty,
POWER_DOWN_SAVE_END writes the save that names EPC_LAST, sets PHASE = OFF_SAFE with OFFCAUSE = 1 and switches every
switched domain off. -/
def Obligations.OrderlyPowerDownSavesAndStops : Prop :=
  (∀ s : State, s.dev.pf0Up = true → s.dev.offStep = 0 → s.dev.resetTr = none → (∀ t ∈ s.dev.wanted, t.prio ≠ 1) →
    (5 ≤ s.dev.rd F.PWR_SEQ_PHASE → s.dev.rd F.PWR_SEQ_PHASE < 7 →
      ∃ t, exec .orderlyPowerDown s = .next t ∧ t.dev.rd F.PWR_SEQ_PHASE = 7 ∧ t.dev.offStep = 1) ∧
    (s.dev.rd F.PWR_SEQ_PHASE < 5 →
      exec .orderlyPowerDown s = .next (s.withDev { s.dev with offStep := 9 }))) ∧
  (∀ s : State, s.dev.offStep = 2 →
    exec .powerDownQuietLimit s =
      .next (if s.dev.offAt + 50000000 ≤ s.tmr then s.withDev ({ s.dev with offStep := 3 }.recallEvery s.cx) else s)) ∧
  ∀ (s : State) env, s.dev.aon = true → s.dev.offStep = 3 → s.dev.homeQuiet = true → s.dev.dir = [] →
    ∃ t, exec (.powerDownSaveEnd env) s = .next t ∧ t.dev.rd F.PWR_SEQ_PHASE = 8 ∧ t.dev.rd F.PWR_SEQ_OFFCAUSE = 1 ∧
      (∃ x, t.dev.save = some x ∧ x.last = s.dev.rd F.EPC_LAST_LAST) ∧ t.dev.aon = true ∧ ∀ k < 112, t.dev.domState k = 0

/-- With the always-on domain powered: DUTY_ADJUST lowers D by 1 (not below 8) exactly when the 1 ms average exceeds
the cap, and otherwise raises it by 1 (not above 64) when the average is 2 % or more below and no thermal throttling
holds it; POWER_SAMPLE drops D to 8 when the sample exceeds 1.08 of the cap, shows the new averages, and sets VWARN
exactly outside 32.0 V to 40.0 V. SENSOR_SAMPLE of one present sensor stores TEMP and VALID, and with a sensor at its
throttle point lowers D by 1 and sets THERMAL. LOSTLOCK clears a locked PLL's bit and counts it. MARGIN_MEASUREMENT of
a lane's eye stores its height, width and lane. That the 10 µs average is the newest sample is the model's choice. -/
def Obligations.SamplesActOnTheDutyAsR537AndR540Say : Prop :=
  ∀ s : State, s.dev.aon = true →
    (exec .dutyAdjust s = .next (s.withDev (
      if s.dev.capMicro s.variant < s.dev.avgMicro then s.dev.wr F.PWR_CAP_DUTY 0 (max 8 (s.dev.rd F.PWR_CAP_DUTY - 1))
      else if s.dev.avgMicro * 100 ≤ s.dev.capMicro s.variant * 98 ∧ s.dev.rd F.PWR_CAP_THERMAL = 0 then
        s.dev.wr F.PWR_CAP_DUTY 0 (min 64 (s.dev.rd F.PWR_CAP_DUTY + 1))
      else s.dev))) ∧
    (∀ mv ma, ∃ t, exec (.powerSample mv ma) s = .next t ∧ t.dev.inputs = ((mv, ma) :: s.dev.inputs).take 100 ∧
      t.dev.rd F.PWR_SEQ_VWARN = (if mv < 32000 ∨ 40000 < mv then 1 else 0) ∧
      t.dev.rd F.PWR_CAP_DUTY =
        (if s.dev.capMicro s.variant * 108 < mv * ma * 100 then 8 else s.dev.rd F.PWR_CAP_DUTY) ∧
      t.dev.rd F.PWR_IN_POWER = min (t.dev.avgMicro / 100000) 65535) ∧
    (∀ n x, sensorPresent s.variant n = true → ∃ t, exec (.sensorSample [(n, x)]) s = .next t ∧
      t.dev.rd F.PWR_TEMP_TEMP n = x % 65536 ∧ t.dev.rd F.PWR_TEMP_VALID n = 1 ∧
      ∀ p, throttlePoint n = some p → p ≤ toSigned 16 (x % 65536) →
        t.dev.rd F.PWR_CAP_THERMAL = 1 ∧ t.dev.rd F.PWR_CAP_DUTY = max 8 (s.dev.rd F.PWR_CAP_DUTY - 1)) ∧
    (∀ p < 20, bit (s.dev.rd F.CLK_STAT_LOCK) p = true → ∃ t, exec (.lostlock p) s = .next t ∧
      t.dev.rd F.CLK_STAT_LOCK = s.dev.rd F.CLK_STAT_LOCK - 2 ^ p ∧
      t.dev.rd F.CLK_STAT_LOSTLOCK = min (s.dev.rd F.CLK_STAT_LOSTLOCK + 1) (2 ^ F.CLK_STAT_LOSTLOCK.w - 1)) ∧
    ∀ i h w l, s.dev.pwrgd = true → s.dev.rd F.RAS_MCFG_PERIOD ≠ 0 → i < s.variant.links →
      ∃ t, exec (.marginMeasurement [(i, h, w, l)] [] []) s = .next t ∧ t.dev.rd F.RAS_LEYE_HEIGHT i = h % 65536 ∧
        t.dev.rd F.RAS_LEYE_WIDTH i = w % 65536 ∧ t.dev.rd F.RAS_LEYE_LANE i = l % 2 ^ F.RAS_LEYE_LANE.w

/-- With the SEC mailbox usable: FW_WRITE of bytes that fit the slot writes exactly them into the slot that is not
ACTIVE, every other byte of boot flash unchanged, claims the update for the mailbox and ends with STATUS 0; while PLDM
holds the claim it ends with BUSY and writes nothing. FW_COMMIT of a slot whose image passes every item marks it
PENDING; of one that fails, STATUS is INVALID_IMAGE, ERR is the item and the slot is no longer valid; either way the
claim ends. FW_ABORT ends the claim. UPDATE_CLAIM_TIMEOUT ends exactly a claim without a write for 60 s. SVN_ADVANCE
sets FUSED to a target from FUSED to the running SVN (64 at most) and leaves it as it is otherwise, with STATUS 3
(what is refused is the model's reading). -/
def Obligations.FirmwareUpdateMailboxCommandsAct : Prop :=
  (∀ s : State, s.secUp →
    (∀ page data, s.dev.claimed 0 = false → page < 2 ^ 32 → data.length ≤ 4096 → 4096 * page + data.length ≤ 2 ^ 25 →
      ∃ t, exec (.fwWrite page data) s = .next t ∧ t.dev.rd F.SEC_MBSTAT_STATUS = 0 ∧ t.dev.claim = some (0, s.tmr) ∧
        (1 - s.dev.nvActive) ∉ t.dev.nvOk ∧
        (∀ i < data.length, tget t.dev.bootFlash ((1 - s.dev.nvActive) * 2 ^ 25 + 4096 * page + i) =
          if data.getD i 0 = 0 then none else some (data.getD i 0)) ∧
        ∀ a, (a < (1 - s.dev.nvActive) * 2 ^ 25 + 4096 * page ∨
            (1 - s.dev.nvActive) * 2 ^ 25 + 4096 * page + data.length ≤ a) →
          tget t.dev.bootFlash a = tget s.dev.bootFlash a) ∧
    (∀ page data, s.dev.claimed 0 = true →
      ∃ t, exec (.fwWrite page data) s = .next t ∧ t.dev.rd F.SEC_MBSTAT_STATUS = 4 ∧ t.dev.claim = s.dev.claim ∧
        t.dev.bootFlash = s.dev.bootFlash ∧ t.dev.nvOk = s.dev.nvOk) ∧
    (∀ img, s.dev.claimed 0 = false → ∃ t, exec (.fwCommit img) s = .next t ∧ t.dev.claim = none ∧
      (if s.dev.imgErr (1 - s.dev.nvActive) img = 0 then
        t.dev.rd F.SEC_MBSTAT_STATUS = 0 ∧ t.dev.nvPending = true ∧ t.dev.rd F.SEC_FWSTAT_PENDING = 1 ∧
          (1 - s.dev.nvActive) ∈ t.dev.nvOk
      else
        t.dev.rd F.SEC_MBSTAT_STATUS = 2 ∧ t.dev.nvPending = false ∧
          t.dev.rd F.SEC_FWSTAT_ERR = s.dev.imgErr (1 - s.dev.nvActive) img ∧ (1 - s.dev.nvActive) ∉ t.dev.nvOk)) ∧
    (s.dev.claimed 0 = false → ∃ t, exec .fwAbort s = .next t ∧ t.dev.claim = none ∧ t.dev.rd F.SEC_MBSTAT_STATUS = 0) ∧
    ∀ target < 2 ^ 32, ∃ t, exec (.svnAdvance target) s = .next t ∧
      (if s.dev.rd F.SEC_FUSE_FUSED ≤ target ∧ target ≤ min 64 (s.dev.rd F.SEC_SVN_RUNNING) then
        t.dev.rd F.SEC_FUSE_FUSED = target ∧ t.dev.rd F.SEC_MBSTAT_STATUS = 0
      else t.dev.rd F.SEC_FUSE_FUSED = s.dev.rd F.SEC_FUSE_FUSED ∧ t.dev.rd F.SEC_MBSTAT_STATUS = 3)) ∧
  ∀ (s : State) p t, s.dev.claim = some (p, t) →
    exec .updateClaimTimeout s = .next (if s.tmr < t + 6000000000 then s else s.withDev { s.dev with claim := none })

/-- GET_CERT of positions 1 to 3 ends with STATUS 0 and the certificate's bytes in the mailbox. DBG_CHALLENGE, by the
mailbox or over the sideband, stores and answers a new nonce (a free value). An unlock whose token fails a check is
refused: the nonce is spent and the debug state stays. One that passes ends, over the sideband with the CXL link down
and no SECURE link, with the token's level in SEC_DBG.STATE, KEYS_GONE set, no session, no IDE key and no nonce;
through the mailbox, where the CXL link is up, the same operation runs and STATUS is 0. -/
def Obligations.DebugUnlockFollowsR529 : Prop :=
  (∀ s : State, s.secUp →
    (∀ pos, 1 ≤ pos → pos ≤ 3 → (s.dev.cert pos).length ≤ 4096 → ∃ t, exec (.getCert pos) s = .next t ∧
      t.dev.rd F.SEC_MBSTAT_STATUS = 0 ∧ t.dev.rd F.SEC_MBSTAT_RLEN = (s.dev.cert pos).length ∧
      t.dev.mbData (s.dev.cert pos).length = s.dev.cert pos) ∧
    (∃ t, exec .dbgChallenge s = .next t ∧ t.dev.dbgNonce = some (Config.freeValue s.dev.fresh % 2 ^ 256) ∧
      t.dev.rd F.SEC_MBSTAT_STATUS = 0 ∧ t.dev.mbData 32 = leBytes 32 (Config.freeValue s.dev.fresh % 2 ^ 256)) ∧
    (∀ token sig, s.dev.tokenOk token sig = false → token.length ≤ 4096 → ∃ t, exec (.dbgUnlock token sig) s = .next t ∧
      t.dev.rd F.SEC_MBSTAT_STATUS = 5 ∧ t.dev.dbgNonce = none ∧ t.dev.rd F.SEC_DBG_STATE = s.dev.rd F.SEC_DBG_STATE) ∧
    (∀ token sig, s.dev.tokenOk token sig = true → exec (.dbgUnlock token sig) s =
      .next (s.withDev (((s.dev.mbAsk 7 0 token).dbgUnlock s.cx token sig).1.mbEnd 0)))) ∧
  ∀ s : State, s.dev.aon = true → s.dev.rtp = 1 →
    exec .vendorDbgChallenge s = .next ((s.withDev { s.dev with
      dbgNonce := some (Config.freeValue s.dev.fresh % 2 ^ 256), fresh := s.dev.fresh + 1 }).shows
        (.sideband 0 [Config.freeValue s.dev.fresh % 2 ^ 256])) ∧
    (∀ token sig, s.dev.tokenOk token sig = false → exec (.vendorDbgUnlock token sig) s =
      .next ((s.withDev { s.dev with dbgNonce := none }).shows (.sideband 1 []))) ∧
    ∀ token sig, s.dev.tokenOk token sig = true → s.dev.rd F.CXP_LSTAT_UP = 0 →
      (∀ i < s.variant.links, s.dev.rd F.LNK_STAT_SECURE i = 0) →
      ∃ t, exec (.vendorDbgUnlock token sig) s = .next t ∧ t.dev.rd F.SEC_DBG_STATE = (token.getD 0 0).toNat ∧
        t.dev.rd F.SEC_DBG_KEYS_GONE = 1 ∧ t.dev.sessions = [] ∧ t.dev.ideKeys = [] ∧ t.dev.ideGo = [] ∧ t.dev.dbgNonce = none

/-- On a transport that the responder serves, with the connection as far as each needs (the order VERSION,
CAPABILITIES, ALGORITHMS and every code and field of a response are presumed from SPDM): GET_VERSION, GET_CAPABILITIES
and NEGOTIATE_ALGORITHMS answer and take the connection one stage on; GET_DIGESTS, GET_CERTIFICATE of slot 0,
CHALLENGE while the alias key exists (nonce and signature are free values) and GET_MEASUREMENTS of one block without a
signature answer and change nothing else; KEY_EXCHANGE appends a session, not yet established, with a new number, when
fewer than four stand on that transport, and is answered BUSY with nothing changed when four do. -/
def Obligations.SpdmRequestsOutsideSessionsAnswer : Prop :=
  ∀ (s : State) (via : Nat), via ≤ 1 → s.dev.spdmUp via = true →
    exec (.getVersion via) s = .next ((s.withDev { s.dev with spdmConn := s.dev.spdmConn.set via 1 }).shows
      (.spdm 0x04 [0x12, 0x13])) ∧
    (1 ≤ s.dev.spdmConn.getD via 0 → exec (.getCapabilities via) s =
      .next ((s.withDev { s.dev with spdmConn := s.dev.spdmConn.set via 2 }).shows (.spdm 0x61 [spdmCaps]))) ∧
    (2 ≤ s.dev.spdmConn.getD via 0 → exec (.negotiateAlgorithms via true) s =
      .next ((s.withDev { s.dev with spdmConn := s.dev.spdmConn.set via 3 }).shows (.spdm 0x63 [0x80, 0x02, 0x10, 0x02]))) ∧
    (3 ≤ s.dev.spdmConn.getD via 0 →
      exec (.getDigests via none) s = .next (s.shows (.spdm 0x01 [1, beNat (sha384 s.dev.chain)])) ∧
      (∀ off n, off < s.dev.chain.length → exec (.getCertificate via none 0 off n) s = .next (s.shows (.spdm 0x02
        ([((s.dev.chain.drop off).take n).length, s.dev.chain.length - off - ((s.dev.chain.drop off).take n).length] ++
          ((s.dev.chain.drop off).take n).map (·.toNat))))) ∧
      (s.dev.rd F.SEC_DBG_KEYS_GONE = 0 → exec (.challenge via none 0) s =
        .next ((s.withDev { s.dev with fresh := s.dev.fresh + 2 }).shows (.spdm 0x03 [1, beNat (sha384 s.dev.chain),
          Config.freeValue s.dev.fresh % 2 ^ 256, Config.freeValue (s.dev.fresh + 1) % 2 ^ 768]))) ∧
      (∀ i, 1 ≤ i → i ≤ 7 → exec (.getMeasurements via none i false) s = .next (s.shows (.spdm 0x60 (s.dev.block s.cx i)))) ∧
      ∀ period, s.dev.rd F.SEC_DBG_KEYS_GONE = 0 →
        ((s.dev.sessions.filter (·.via = via)).length < 4 → ∃ t, exec (.keyExchange via period) s = .next t ∧
          t.dev.sessNext = s.dev.sessNext + 1 ∧ t.dev.sessions = s.dev.sessions ++
            [{ id := s.dev.sessNext, via := via, period := period * 100000000, last := s.tmr }] ∧
          t.dev.rd (if via = 0 then F.SEC_SESS_DOE else F.SEC_SESS_MCTP) =
            (s.dev.sessions.filter (·.via = via)).length + 1) ∧
        (4 ≤ (s.dev.sessions.filter (·.via = via)).length →
          exec (.keyExchange via period) s = .next (s.shows (.spdm 0x7F [3]))))

/-- In a session that stays below its record limit: FINISH whose verify data checks establishes it; HEARTBEAT restarts
its period; KEY_UPDATE renews the requester's direction (1) or both (2), whose records count from 0, or verifies (3);
END_SESSION ends it; each of the others counts one record in both directions. SESSION_HEARTBEAT_MISS ends exactly a
session whose heartbeat is three periods late, counted in SEC_SESS.ENDED. On DOE, KEY_PROG stores the key of a
sub-stream, K_SET_GO of a whole key set starts it, and K_SET_STOP stops it and forgets its keys (the codes of messages
are presumed). -/
def Obligations.SessionMessagesActOnTheirSession : Prop :=
  (∀ (s : State) id x, s.inSession id x false → ∃ t, exec (.finish id true) s = .next t ∧
    t.session id = some { x with est := true, last := s.tmr, rx := x.rx + 1, tx := x.tx + 1 } ∧
    t.dev.out = s.dev.out ++ [.spdm 0x65 []]) ∧
  (∀ (s : State) id x, s.inSession id x true →
    (∃ t, exec (.heartbeat id) s = .next t ∧
      t.session id = some { x with last := s.tmr, rx := x.rx + 1, tx := x.tx + 1 } ∧
      t.dev.out = s.dev.out ++ [.spdm 0x68 []]) ∧
    (∀ op, 1 ≤ op → op ≤ 3 → ∃ t, exec (.keyUpdate id op) s = .next t ∧
      t.session id = some { x with rx := if op = 3 then x.rx + 1 else 0, tx := if op = 2 then 0 else x.tx + 1 } ∧
      t.dev.out = s.dev.out ++ [.spdm 0x69 [op]]) ∧
    (∃ t, exec (.endSession id) s = .next t ∧ t.session id = none ∧ t.dev.out = s.dev.out ++ [.spdm 0x6C []]) ∧
    (x.via = 0 → ∀ stream set_ dir, stream ≤ 4 → set_ ≤ 1 → dir ≤ 1 →
      (∀ sub ∈ ideSubs stream, ∃ t, exec (.ideKm id 2 stream set_ dir sub) s = .next t ∧
        t.dev.ideKeys = sadd s.dev.ideKeys (stream * 16 + set_ * 8 + dir * 4 + sub) ∧
        t.dev.out = s.dev.out ++ [.spdm 0x7E [3, stream, set_, dir, sub, 0]]) ∧
      (∀ sub, (∀ b ∈ ideSubs stream, (stream * 16 + set_ * 8 + dir * 4 + b) ∈ s.dev.ideKeys) →
        ∃ t, exec (.ideKm id 4 stream set_ dir sub) s = .next t ∧
          t.dev.ideGo = sadd s.dev.ideGo (stream * 4 + set_ * 2 + dir) ∧
          (stream = 4 → t.dev.rd F.CXP_LSTAT_IDE_CM = if t.dev.ideSecure 4 then 1 else 0)) ∧
      (∀ sub, stream = 4 → ∃ t, exec (.ideKm id 5 stream set_ dir sub) s = .next t ∧
        (16 + set_ * 2 + dir) ∉ t.dev.ideGo ∧ (∀ b < 4, (64 + set_ * 8 + dir * 4 + b) ∉ t.dev.ideKeys) ∧
        t.dev.rd F.CXP_LSTAT_IDE_CM = if t.dev.ideSecure 4 then 1 else 0))) ∧
  ∀ (s : State) id, exec (.sessionHeartbeatMiss id) s =
    .next (s.withDev (s.dev.endSess fun y => y.id = id && y.est && y.period ≠ 0 && decide (y.last + 3 * y.period ≤ s.tmr)))

/-- In an established session on DOE, for an existing VF f: LOCK of an unlocked TDI that meets every condition of R519
makes it CONFIG_LOCKED on the stream, with a nonce (a free value) that START must carry to make it RUN; a LOCK in
another state and a START with another nonce are refused and leave STATE as it is. STOP of a TDI whose function is
ENABLED asks for the quiesce and is marked as its cause; where the function neither runs nor quiesces, the TDI is
CONFIG_UNLOCKED at once. A locked TDI answers its report: the MMIO ranges, its kennels and its windows. Codes are
presumed from TDISP. -/
def Obligations.TdispLocksStartsAndStopsAnInterface : Prop :=
  ∀ (s : State) id x f, s.inSession id x true → x.via = 0 → 1 ≤ f → f ≤ 512 →
    (∀ stream, s.dev.rd F.SEC_TDI_STATE f = 0 → s.dev.lockable f stream = true →
      ∃ t, exec (.lockInterfaceRequest id f stream) s = .next t ∧ t.dev.rd F.SEC_TDI_STATE f = 1 ∧
        t.dev.rd F.SEC_TDI_STREAM f = stream ∧ tget t.dev.tdiNonce f = some (Config.freeValue s.dev.fresh % 2 ^ 256) ∧
        t.dev.out = s.dev.out ++ [.spdm 0x7E [0x03, f, Config.freeValue s.dev.fresh % 2 ^ 256]]) ∧
    (∀ stream, s.dev.rd F.SEC_TDI_STATE f ≠ 0 → ∃ t, exec (.lockInterfaceRequest id f stream) s = .next t ∧
      t.dev.rd F.SEC_TDI_STATE f = s.dev.rd F.SEC_TDI_STATE f ∧ t.dev.out = s.dev.out ++ [.spdm 0x7E [0x7F, f, 4]]) ∧
    (∀ n, s.dev.rd F.SEC_TDI_STATE f = 1 → tget s.dev.tdiNonce f = some n →
      ∃ t, exec (.startInterfaceRequest id f n) s = .next t ∧ t.dev.rd F.SEC_TDI_STATE f = 2 ∧
        tget t.dev.tdiNonce f = none ∧ t.dev.out = s.dev.out ++ [.spdm 0x7E [0x06, f]]) ∧
    (∀ n, s.dev.rd F.SEC_TDI_STATE f = 1 → tget s.dev.tdiNonce f ≠ some n →
      ∃ t, exec (.startInterfaceRequest id f n) s = .next t ∧ t.dev.rd F.SEC_TDI_STATE f = 1 ∧
        t.dev.out = s.dev.out ++ [.spdm 0x7E [0x7F, f, 0x102]]) ∧
    (s.dev.rd F.SEC_TDI_STATE f ≠ 0 → s.dev.rd F.FN_STAT_STATE f = 1 → s.dev.quiescing f = false →
      ∃ t, exec (.stopInterfaceRequest id f) s = .next t ∧ t.dev.wanted = s.dev.wanted ++ [.quiesce f] ∧
        f ∈ t.dev.tdiStop ∧ t.dev.out = s.dev.out ++ [.spdm 0x7E [0x07, f]]) ∧
    (s.dev.rd F.SEC_TDI_STATE f ≠ 0 → s.dev.rd F.FN_STAT_STATE f ≠ 1 → s.dev.quiescing f = false →
      ∃ t, exec (.stopInterfaceRequest id f) s = .next t ∧ t.dev.rd F.SEC_TDI_STATE f = 0 ∧ f ∉ t.dev.hostDisc ∧
        t.dev.out = s.dev.out ++ [.spdm 0x7E [0x07, f]]) ∧
    (s.dev.tdiLocked f = true → ∃ t, exec (.interfaceReport id f) s = .next t ∧
      t.dev.out = s.dev.out ++ [.spdm 0x7E ([0x04, f] ++ s.dev.report f)])

/-- With the always-on domain powered and the root of trust not in recovery: ALERT_STATUS answers the alert mask, the
depth of the fault queue and LOST, and changes nothing; ALERT_CLEAR clears exactly the bits below 32 that its argument
names, and nothing else; FAULT_READ takes the oldest records, four at most (the model's choice of how many one
response holds), and answers their words; MAP_STATUS answers MAP_EPOCH, MAP_KLOG.COMMITTED and the fields of MAP_KEEP.
Each is shown once as a response with completion code 0, and nothing else in the machine changes. MCTP Set Endpoint ID
stores an EID from 1 to 254 and answers it, Get Endpoint ID the one stored; SETAASA gives a module whose SLOTID is 0
to 61 the dynamic address 0x40 + SLOTID; ENTDAA gives one whose SLOTID is 62 or 63, and that has no address, the
address assigned. -/
def Obligations.SidebandCommandsAnswer : Prop :=
  ∀ s : State, s.dev.aon = true →
    (s.dev.rtp ≠ 2 → exec .alertStatus s = .next (s.shows (.sideband 0 [s.dev.alerts, s.dev.sideQ.length, s.dev.sideLost])) ∧
    (∀ mask, ∃ t, exec (.alertClear mask) s = .next t ∧
      (∀ b, bit t.dev.alerts b = (bit s.dev.alerts b && !(decide (b < 32) && bit mask b))) ∧
      t = (s.withDev { s.dev with alerts := t.dev.alerts }).shows (.sideband 0 [])) ∧
    exec .faultRead s = .next ((s.withDev { s.dev with sideQ := s.dev.sideQ.drop 4 }).shows
      (.sideband 0 (s.dev.sideQ.take 4).flatten)) ∧
    exec .mapStatus s = .next (s.shows (.sideband 0
      [s.dev.rd F.MAP_EPOCH_EPOCH, s.dev.rd F.MAP_KLOG_COMMITTED, s.dev.rd F.MAP_KEEP_KEEPER, s.dev.rd F.MAP_KEEP_LEAD,
       s.dev.rd F.MAP_KEEP_KSET, s.dev.rd F.MAP_KEEP_LEAD_NODE, s.dev.rd F.MAP_KEEP_TERM]))) ∧
    (∀ x, 0 < x → x < 255 → exec (.mctpControl 1 x) s = .next ((s.withDev { s.dev with eid := x }).shows (.sideband 0 [x]))) ∧
    (∀ x, exec (.mctpControl 2 x) s = .next (s.shows (.sideband 0 [s.dev.eid]))) ∧
    (s.dev.rd F.SYS_STRAP_SLOTID ≤ 61 → exec .setaasa s =
      .next (s.withDev { s.dev with i3cAddr := some (0x40 + s.dev.rd F.SYS_STRAP_SLOTID) })) ∧
    (∀ a, a < 128 → 62 ≤ s.dev.rd F.SYS_STRAP_SLOTID → s.dev.i3cAddr = none →
      exec (.entdaa a) s = .next (s.withDev { s.dev with i3cAddr := some a }))

/-- In an established MCTP session that stays below its record limit, with the root of trust in service: POWERDOWN
starts the orderly power-down (PHASE 7) of a module that is ready; MODULE_RESET requests a module reset with cause 4;
MAP_GENESIS stores the given records as index 1 of an empty keeper log and commits them; MAP_PROPOSE sends the change
to the lead keeper. Without a session each is answered with an error completion and changes nothing else. -/
def Obligations.SidebandSessionCommandsActInTheirSession : Prop :=
  (∀ (s : State) (id : Nat) (x : Sess), s.mctp id x →
    (5 ≤ s.dev.rd F.PWR_SEQ_PHASE → s.dev.rd F.PWR_SEQ_PHASE < 7 → s.dev.offStep = 0 → s.dev.resetTr = none →
      (∀ r ∈ s.dev.wanted, r.prio ≠ 1) →
      ∃ t, exec (.powerdown (some id)) s = .next t ∧ t.dev.rd F.PWR_SEQ_PHASE = 7 ∧ t.dev.offStep = 1) ∧
    (s.mayReset → ∃ t, exec (.vendorModuleReset (some id)) s = .next t ∧ t.dev.wanted = s.dev.wanted ++ [.moduleReset 4]) ∧
    (∀ recs, s.dev.genesisOk recs = true → s.dev.rd F.MAP_KLOG_COMMITTED = 0 →
      ∃ t, exec (.mapGenesis (some id) recs) s = .next t ∧ t.dev.rd F.MAP_KLOG_COMMITTED = 1 ∧
        t.dev.kp.log = [⟨0, .records recs⟩]) ∧
    (∀ ch n, s.dev.rd F.MAP_NODE_VALID = 1 → s.dev.kp.lead = some n →
      ∃ t, exec (.mapPropose (some id) ch) s = .next t ∧
        t.dev.out = s.dev.out ++ [.keep n (.propose ch), .sideband 0 []])) ∧
  (∀ s : State, s.dev.aon = true → s.dev.rtp ≠ 2 →
    exec (.powerdown none) s = .next (s.shows (.sideband 1 [])) ∧
    exec (.vendorModuleReset none) s = .next (s.shows (.sideband 1 [])) ∧
    (∀ recs, exec (.mapGenesis none recs) s = .next (s.shows (.sideband 1 []))) ∧
    ∀ ch, exec (.mapPropose none ch) s = .next (s.shows (.sideband 1 [])))

/-- With the always-on domain powered and the root of trust not in recovery: GetTID answers the TID and SetTID stores
one that is neither 0x00 nor 0xFF; GetPLDMVersion of types 0, 2 and 5 answers one version, a free value (log entry),
and takes the next free value; GetPLDMTypes answers the three types and GetPLDMCommands the commands of one of them;
GetPDR gives the record of a handle, the next handle (0 at the end), its type and its sensor, GetPDRRepositoryInfo the
number of records; GetSensorReading gives the value of a numeric sensor that is present; GetStateSensorReadings gives
MSTATE or PHASE. The completion code is 0 and nothing else changes. -/
def Obligations.PldmMonitoringCommandsAnswer : Prop :=
  ∀ s : State, s.dev.aon = true → s.dev.rtp ≠ 2 →
    exec .getTid s = .next (s.shows (.sideband 0 [s.dev.tid])) ∧
    (∀ x, 0 < x → x < 255 → exec (.setTid x) s = .next ((s.withDev { s.dev with tid := x }).shows (.sideband 0 []))) ∧
    (∀ p, p = 0 ∨ p = 2 ∨ p = 5 → exec (.getPldmVersion p) s =
      .next ((s.withDev { s.dev with fresh := s.dev.fresh + 1 }).shows (.sideband 0 [Config.freeValue s.dev.fresh]))) ∧
    exec .getPldmTypes s = .next (s.shows (.sideband 0 [2 ^ 0 + 2 ^ 2 + 2 ^ 5])) ∧
    (∀ p, p = 0 ∨ p = 2 ∨ p = 5 → exec (.getPldmCommands p) s = .next (s.shows (.sideband 0 (pldmCommands p)))) ∧
    (∀ h n, 0 < h → (pldmSensors s.variant)[h - 1]? = some n → exec (.getPdr h) s = .next (s.shows (.sideband 0
      [h, if h < (pldmSensors s.variant).length then h + 1 else 0, if 0x300 ≤ n then 4 else 2, n]))) ∧
    exec .getPdrRepositoryInfo s = .next (s.shows (.sideband 0 [(pldmSensors s.variant).length])) ∧
    (∀ n x, n ∈ pldmSensors s.variant → n < 0x300 → s.dev.sensorValue n = some x →
      exec (.getSensorReading n) s = .next (s.shows (.sideband 0 [0, x]))) ∧
    exec (.getStateSensorReadings 0x300) s = .next (s.shows (.sideband 0 [0, s.dev.rd F.RAS_STAT_MSTATE])) ∧
    exec (.getStateSensorReadings 0x301) s = .next (s.shows (.sideband 0 [0, s.dev.rd F.PWR_SEQ_PHASE]))

/-- With the root of trust in service on a powered always-on domain: QueryDeviceIdentifiers and GetFirmwareParameters
answer the identifiers and the versions; RequestUpdate claims an unclaimed update for the PLDM path;
PassComponentTable of one component, UpdateComponent of an image of at most 32 MiB (with the module's request for its
first data), ActivateFirmware after a complete image, CancelUpdateComponent and CancelUpdate each move the update to
its next state and answer with success; GetStatus answers state and progress; image data that completes nothing is
written to the slot that is not ACTIVE at the offset reached, advances the offset, renews the claim and asks for more.
The states' numbers are the model's. -/
def Obligations.FirmwareUpdateOverPldmAdvancesItsClaim : Prop :=
  ∀ s : State, s.dev.aon = true → s.dev.rtp = 1 →
    exec .queryDeviceIdentifiers s = .next (s.shows (.sideband 0 [s.dev.rd F.SYS_ID_VENDOR, s.dev.rd F.SYS_ID_DEVICE])) ∧
    (∃ v, exec .getFirmwareParameters s = .next (s.shows (.sideband 0 [1, s.dev.rd F.SEC_FWSTAT_VERSION, v]))) ∧
    (s.dev.claim = none → s.dev.pldm.st ≤ 3 → exec .requestUpdate s =
      .next ((s.withDev { s.dev with claim := some (1, s.tmr), pldm := { st := 1 } }).shows (.sideband 0 []))) ∧
    (s.dev.updSt = 1 → exec (.passComponentTable 1) s =
      .next ((s.withDev { s.dev with pldm := { st := 2 } }).shows (.sideband 0 []))) ∧
    (∀ n, s.dev.updSt = 2 → 0 < n → n ≤ 2 ^ 25 → ∃ t k, exec (.updateComponent n) s = .next t ∧
      t.dev.pldm = { st := 3, size := n } ∧ 0 < k ∧ k ≤ n ∧
      t.dev.out = s.dev.out ++ [.sideband 0 [], .pldmReq 0x15 [0, k]]) ∧
    (∀ b g g', s.dev.updSt = 3 → b ≠ [] → s.dev.pldm.got + b.length < s.dev.pldm.size →
      ∃ t, exec (.firmwareData b g g') s = .next t ∧ t.dev.pldm.got = s.dev.pldm.got + b.length ∧
        t.dev.claim = some (1, s.tmr) ∧
        ∀ i (h : i < b.length), (tget t.dev.bootFlash ((1 - s.dev.nvActive) * 2 ^ 25 + s.dev.pldm.got + i)).getD 0 = b[i]) ∧
    (s.dev.updSt = 4 → exec .activateFirmware s =
      .next ((s.withDev { s.dev with pldm := {} }).shows (.sideband 0 [1]))) ∧
    (∃ v, exec .getStatus s = .next (s.shows (.sideband 0 [v, s.dev.pldm.got, s.dev.pldm.size]))) ∧
    (s.dev.updSt = 3 → exec .cancelUpdateComponent s =
      .next ((s.withDev { s.dev with pldm := { st := 2 }, claim := some (1, s.tmr) }).shows (.sideband 0 []))) ∧
    (s.dev.updSt ≠ 0 → s.dev.updSt ≤ 5 → ∃ t, exec .cancelUpdate s = .next t ∧ t.dev.pldm = {} ∧
      (∀ n, t.dev.claim ≠ some (1, n)) ∧ t.dev.out = s.dev.out ++ [.sideband 0 []])

/-- The lead appends an acceptable proposal and sends it to the other keepers; another keeper passes it to the lead. A
keeper stores an entry whose predecessor is the lead's and acknowledges it, and refuses any other; an answer tells the
lead how far a keeper is, and a refusal makes it send the entry before. A vote goes once a term to a candidate whose
log is as late; the quorum's vote makes the lead, which sends a heartbeat at once and every 5 ms; a keeper that hears
none for 50 ms stands in the next term. COMMIT of a later epoch, and the timer of 1 s, make a module ask for its
records, the next keeper in order after 10 ms. A keeper answers with the records of the node. Records of a later epoch
wait to be applied; older ones change nothing. The lead notes APPLIED. A module that is no keeper ignores all of it.
-/
def Obligations.KeepersReplicateTheLog : Prop :=
  ∀ (s : State) src,
    let d := s.dev
    let me := d.rd F.MAP_NODE_NODE
    let now := d.rd F.MAP_KEEP_TERM
    let log := d.kp.log
    let done := d.rd F.MAP_KLOG_COMMITTED
    let epoch := d.rd F.MAP_EPOCH_EPOCH
    let asks := fun (t : State) n => t.dev.out = d.out ++ [.keep n (.fetch me epoch)] ∧ t.dev.kp.asked = some n ∧
      t.dev.kp.askedAt = s.tmr
    (d.keeps = true → ∀ index e ch,
      (d.leads = true → d.acceptable src ch = true → ∃ t, exec (.propose src ch) s = .next t ∧ t.dev.kp.log = log ++ [⟨now, ch⟩] ∧
        ∀ n ∈ d.otherKeepers, .keep n (.append now (log.length + 1) (d.termAt log.length) ⟨now, ch⟩) ∈ t.dev.out) ∧
      (∀ n, d.leads = false → d.kp.lead = some n → n ≠ me → exec (.propose src ch) s = .next (s.shows (.keep n (.propose ch))) ∧
        exec (.applied src index) s = .next (s.shows (.keep n (.applied index)))) ∧
      (done < index → index ≤ log.length + 1 → ∃ t, exec (.append src now index (d.termAt (index - 1)) e) s = .next t ∧
        t.dev.out = d.out ++ [.keep src (.appendAck index now true)] ∧ t.dev.kp.log =
          if index ≤ log.length ∧ d.termAt index = e.term then log else log.take (index - 1) ++ [e]) ∧
      (∀ term pterm, 0 < index → term < now ∨ term = now ∧ (log.length + 1 < index ∨ pterm ≠ d.termAt (index - 1)) →
        exec (.append src term index pterm e) s = .next (s.shows (.keep src (.appendAck index now false)))) ∧
      (d.leads = true → src ∈ d.otherKeepers →
        (∃ t, exec (.appendAck src index now true) s = .next t ∧
          tget t.dev.kp.acks src = some (max index ((tget d.kp.acks src).getD 0))) ∧
        ∀ x, 1 < index → log[index - 2]? = some x → exec (.appendAck src index now false) s =
          .next (s.shows (.keep src (.append now (index - 1) (d.termAt (index - 2)) x)))) ∧
      (∀ lterm lindex,
        let late := d.termAt log.length < lterm ∨ lterm = d.termAt log.length ∧ log.length ≤ lindex
        (late → d.kp.voted = none ∨ d.kp.voted = some src → d.rd F.MAP_KEEP_LEAD = 0 →
          ∃ t, exec (.voteReq src now lterm lindex) s = .next t ∧ t.dev.kp.voted = some src ∧
            t.dev.out = d.out ++ [.keep src (.vote now true)]) ∧
        (¬late ∨ (∃ n, d.kp.voted = some n ∧ n ≠ src) → exec (.voteReq src now lterm lindex) s =
          .next (s.shows (.keep src (.vote now false)))) ∧
        ∀ term, now < term → term < 2 ^ 32 → ∃ t, exec (.voteReq src term lterm lindex) s = .next t ∧
          t.dev.rd F.MAP_KEEP_TERM = term ∧ t.dev.rd F.MAP_KEEP_LEAD = 0 ∧
          (late → t.dev.kp.voted = some src) ∧ (¬late → t.dev.kp.voted = none)) ∧
      (d.kp.cand = true → src ∈ d.otherKeepers → 2 ≤ d.kset.length → ∃ t, exec (.vote src now true) s = .next t ∧
        if d.quorum ≤ (sadd d.kp.votes src).length + 1 then t.dev.rd F.MAP_KEEP_LEAD = 1 ∧ t.dev.kp.lead = some me ∧
          ∀ n ∈ d.otherKeepers, .keep n (.heartbeat now done) ∈ t.dev.out
        else t.dev.kp.votes = sadd d.kp.votes src ∧ t.dev.out = d.out) ∧
      (∀ committed, d.rd F.MAP_KEEP_LEAD = 0 → ∃ t, exec (.keepHeartbeat src now committed) s = .next t ∧
        t.dev.kp.lead = some src ∧ t.dev.kp.heard = s.tmr ∧ t.dev.kp.log = log ∧
        (min committed d.kp.matched ≤ done → t.dev.rd F.MAP_KLOG_COMMITTED = done)) ∧
      (d.leads = true → d.kp.sent + 500000 ≤ s.tmr → ∃ t, exec .heartbeatTimer s = .next t ∧ t.dev.kp.sent = s.tmr ∧
        t.dev.out = d.out ++ d.otherKeepers.map fun n => .keep n (.heartbeat now done)) ∧
      (d.leads = false → d.kp.heard + 5000000 ≤ s.tmr → 2 ≤ d.kset.length → ∃ t, exec .electionTimeout s = .next t ∧
        t.dev.rd F.MAP_KEEP_TERM = (now + 1) % 2 ^ 32 ∧ t.dev.kp.voted = some me ∧ t.dev.kp.cand = true ∧ t.dev.out = d.out ++
          d.otherKeepers.map fun n => .keep n (.voteReq ((now + 1) % 2 ^ 32) (d.termAt log.length) log.length)) ∧
      (d.kp.kmap ≠ [] → exec (.keepFetch src index epoch) s = .next (s.shows (.keep src (.records
        ((d.kp.kmap.find? fun (m : MapRecs) => m.node = index).getD { epoch := d.epochOf done }))))) ∧
      (d.leads = true → ∃ t, exec (.applied src index) s = .next t ∧ tget t.dev.kp.applied src = some index ∧
        t.dev.out = d.out)) ∧
    (d.keeps = false → ∀ i ∈ [Instr.heartbeatTimer, .electionTimeout, .appendAck src 1 1 true, .vote src 1 true],
      exec i s = .next s) ∧
    (d.rd F.MAP_NODE_VALID = 1 →
      (∀ index x, d.rd F.MAP_KEEP_KEEPER = 0 → ∃ t, exec (.keepCommit src index x [] none) s = .next t ∧
        t.dev.kp.lead = some src ∧ t.dev.rd F.MAP_KLOG_COMMITTED = max index done % 2 ^ 64 ∧
        if epoch < x then asks t src else t.dev.out = d.out) ∧
      (∀ recs, d.lostFor = 0 → (∀ m, d.nextMap = some m → m.epoch < recs.epoch) → epoch < recs.epoch →
        ∃ t, exec (.records src recs) s = .next t ∧ t.dev.nextMap = some recs ∧ .mapApply ∈ t.dev.wanted ∧ t.sameStore s) ∧
      (∀ recs, d.lostFor = 0 → recs.epoch ≤ epoch → ∃ t, exec (.records src recs) s = .next t ∧ t.dev.nextMap = d.nextMap ∧
        t.dev.out = d.out ∧ t.sameStore s) ∧
      (∀ k, d.kp.asked = some k → (s.tmr < d.kp.askedAt + 1000000 → exec .recordsTimeout s = .next s) ∧
        ∀ n r, d.fetchOrder = k :: n :: r → d.kp.askedAt + 1000000 ≤ s.tmr → ∃ t, exec .recordsTimeout s = .next t ∧ asks t n) ∧
      (s.tmr < d.kp.fetched + 100000000 → exec .mapFetchTimer s = .next s) ∧
      ∀ n r, d.fetchOrder = n :: r → d.kp.fetched + 100000000 ≤ s.tmr → ∃ t, exec .mapFetchTimer s = .next t ∧ asks t n)

/-- An epoch no later than the one in force is dropped. An invalid one is rejected with its cause, and no binding
changes. A valid one that omits no kennel comes into force; a single new kennel takes the lowest FREE entry. A
revocation that may start makes the kennel REVOKING, cancels every pending migration with a line in it, and changes no
byte. With requests in flight the drain does not end; with none, and no copy out, PHASE becomes SCRUB. The end of the
scrub leaves zeros in the kennel and only there, no poison and no flash unit of it, its windows FREE, its entry FREE,
and reports the range. A drain that is not done after 500 ms requests a module reset. -/
def Obligations.MapEpochsBindAndRevokeKennels : Prop :=
  ∀ (s : State) knl,
    let d := s.dev
    let inK := fun a => d.inKennel knl a
    let st := fun (t : State) k => t.dev.rd F.KNL_BIND_STATE k
    (d.nextMap = none → exec .mapEpochApply s = .next s) ∧
    (∀ m, d.nextMap = some m →
      (d.runs .mapApply = false → d.canStart .mapApply = false → exec .mapEpochApply s = .next s) ∧
      (d.canStart .mapApply = true → ∃ t, exec .mapEpochApply s = .next t ∧
        (m.epoch ≤ d.rd F.MAP_EPOCH_EPOCH → t.dev.nextMap = none ∧ t.dev.out = d.out ∧ t.dev.regs = d.regs ∧
          t.sameStore s) ∧
        (d.rd F.MAP_EPOCH_EPOCH < m.epoch → d.mapCause s.variant m ≠ 0 → t.dev.nextMap = none ∧
          t.dev.rd F.MAP_STAT_REJECTED = 1 ∧ t.dev.rd F.MAP_STAT_CAUSE = d.mapCause s.variant m ∧
          t.dev.rd F.MAP_STAT_REJ_EPOCH = m.epoch % 2 ^ 32 ∧ t.dev.map = d.map ∧ bit t.dev.alerts 3 = true ∧
          (∀ k, st t k = st s k) ∧ t.sameStore s ∧ t.dev.rd F.MAP_EPOCH_EPOCH = d.rd F.MAP_EPOCH_EPOCH) ∧
        (d.rd F.MAP_EPOCH_EPOCH < m.epoch → d.mapCause s.variant m = 0 → (∀ k, st s k = 1 → d.listedBy m k = true) →
          t.dev.map = m ∧ t.dev.nextMap = none ∧ t.dev.rd F.MAP_EPOCH_EPOCH = m.epoch % 2 ^ 32 ∧
          ∀ k i, m.kennels = [k] → d.kennelIs 1 k = none → i < 2048 → st s i = 0 → (∀ j < i, st s j ≠ 0) →
            st t i = 1 ∧ t.dev.rd F.KNL_RANGE_BASE i = k.base % 2 ^ 17 ∧ t.dev.rd F.KNL_RANGE_SIZE i = k.size % 2 ^ 18 ∧
            t.dev.rd F.KNL_BIND_COLLAR i = k.collar % 2 ^ 10 ∧ t.dev.rd F.KNL_BIND_EPOCH i = m.epoch % 2 ^ 32))) ∧
    (d.canStart (.revoke knl) = false → exec (.revocationStart knl) s = .next s) ∧
    (d.canStart (.revoke knl) = true → st s knl = 1 → ∃ t, exec (.revocationStart knl) s = .next t ∧ t.sameStore s ∧
      st t knl = 2 ∧ t.dev.rd F.KNL_BIND_PHASE knl = 0 ∧ tget t.dev.revAt knl = some s.tmr ∧ .revoke knl ∉ t.dev.wanted ∧
      ∀ k r l, (k, r) ∈ t.dev.redir → r.pending = true → l ∈ r.watch ++ r.dlines → inK (l * 64) = false) ∧
    (st s knl ≠ 2 ∨ d.rd F.KNL_INFLT_COUNT knl ≠ 0 → exec (.revocationDrainEnd knl) s = .next s) ∧
    (st s knl = 2 → d.rd F.KNL_BIND_PHASE knl = 0 → d.rd F.KNL_INFLT_COUNT knl = 0 →
      (∀ k e, (k, e) ∈ d.dir → inK (e.line * 64) = false) → ∃ t, exec (.revocationDrainEnd knl) s = .next t ∧ t.sameStore s ∧
        t.dev.out = d.out ∧ t.dev.rd F.KNL_BIND_PHASE knl = if ∀ x ∈ d.trackers ++ d.victims, inK (x.line * 64) = false then 1
          else 0) ∧
    (st s knl = 2 → d.rd F.KNL_BIND_PHASE knl = 1 → d.hold < 2 → (d.scrubUndos s.cx (d.scrubPages knl)).2 = true →
      ∃ t, exec (.scrubEnd knl) s = .next t ∧ (∀ a, t.dev.byte a = if inK a then 0 else d.byte a) ∧
        (∀ l, l ∈ t.dev.poison ↔ l ∈ d.poison ∧ inK (l * 64) = false) ∧
        (∀ u, inK (u * 65536) = true → tget t.dev.fmap u = none ∧ tget t.dev.pins u = none) ∧
        (∀ w, inK (d.rd F.XLT_WBASE_BASE w * 4096) = true → t.dev.rd F.XLT_WCTL_ST w = 0) ∧
        t.dev.rd F.TIR_KPIN_QUOTA knl = 0 ∧ st t knl = 0 ∧ t.dev.rd F.KNL_RANGE_SIZE knl = 0 ∧
        ∀ n, d.rd F.MAP_NODE_VALID = 1 → d.kp.lead = some n → .keep n (.propose (.free (d.rd F.MAP_NODE_NODE) (d.rd F.KNL_RANGE_BASE knl) (d.rd F.KNL_RANGE_SIZE knl))) ∈ t.dev.out) ∧
    (∀ since, tget d.revAt knl = some since →
      (s.tmr < since + 50000000 → exec (.kennelDrain knl) s = .next s) ∧
      (st s knl = 2 → d.rd F.KNL_BIND_PHASE knl = 0 → d.rd F.KNL_INFLT_COUNT knl ≠ 0 → since + 50000000 ≤ s.tmr → s.mayReset →
        ∃ t, exec (.kennelDrain knl) s = .next t ∧ t.dev.wanted = d.wanted ++ [.moduleReset 2] ∧ tget t.dev.revAt knl = none))

/-- None of these rows changes a byte of the store when no access waits. The end of a fill makes the page resident and
takes its codewords off the channel's queue; nothing ends at a fenced channel. The end of a program maps the unit to
its new slot, the old one invalid; a failure retires the block and the unit takes another slot. More dirty frames than
DIRTY_HI percent start the write-back of the least recently used dirty unit. Garbage collection of a block that no
unit is in frees its slots, or counts a bad block. A kennel's budget gains RATE/1000 a millisecond, the fraction kept,
up to BURST; a leash RATE/256 a microsecond; every leaky counter of the kind falls by 1, and is freed at 0. -/
def Obligations.TiersAndBudgetsKeepTheirCounts : Prop :=
  ∀ (s : State) page unit ch kind,
    let d := s.dev
    let chan := fun off => d.channelOf s.variant off
    let fenced := fun c => d.bitAt F.RAS_FLMASK_FLASH 0 c
    let dirty := (d.lc.filter fun (w : LcWay) => w.dirty).length
    let stale := (tget d.stale ch).getD []
    (∀ (f : Fill), d.fills.find? (fun (x : Fill) => x.page = page && !x.reb) = some f → ∀ can,
      (fenced (chan (page * 4096)) = true → exec (.lineCacheFillEnd page none can) s = .next s) ∧
      (fenced (chan (page * 4096)) = false → f.waiting = [] → ∃ t, exec (.lineCacheFillEnd page none can) s = .next t ∧
        t.sameStore s ∧ t.dev.out = d.out ∧ t.dev.resident page = true ∧ (∀ x ∈ t.dev.fills, x.page ≠ page) ∧
        t.dev.rd F.FLS_QUEUE_QUEUED (chan (page * 4096)) = d.rd F.FLS_QUEUE_QUEUED (chan (page * 4096)) - f.cws)) ∧
    (∀ p : Prog, d.progs.find? (fun (x : Prog) => x.unit = unit) = some p →
      (∀ ok, fenced (chan (unit * 65536)) = true → exec (.flashProgramEnd unit ok) s = .next s) ∧
      (fenced (chan (unit * 65536)) = false →
        (∃ t, exec (.flashProgramEnd unit true) s = .next t ∧ t.sameStore s ∧ (∀ x ∈ t.dev.progs, x.unit ≠ unit) ∧
          tget t.dev.fmap unit = some (.flash p.slot p.comp) ∧ (∀ x c, d.unitHome unit = some (.flash x c) →
            x ∈ (tget t.dev.stale (chan (unit * 65536))).getD [])) ∧
        ∃ t, exec (.flashProgramEnd unit false) s = .next t ∧ t.sameStore s ∧ t.dev.fmap = d.fmap ∧
          t.dev.progs.map (fun (x : Prog) => x.unit) = d.progs.map (fun (x : Prog) => x.unit) ∧
          t.dev.rd F.FLS_SPACE_BAD (chan (unit * 65536)) = min (d.rd F.FLS_SPACE_BAD (chan (unit * 65536)) + 1) 1023)) ∧
    (100 * dirty ≤ d.dirtyHi * d.lcTotal s.variant → exec .dirtyWriteback s = .next s) ∧
    (d.dirtyHi * d.lcTotal s.variant < 100 * dirty → ∃ t, exec .dirtyWriteback s = .next t ∧ t.sameStore s ∧ t.dev.out = d.out ∧
      ∀ w : LcWay, d.lc.find? (fun (w : LcWay) => w.dirty && !d.progs.any (fun (p : Prog) => p.unit = w.page / 16)) = some w →
        d.presentBlocks (w.page / 16) ≠ [] → ∃ p ∈ t.dev.progs, p.unit = w.page / 16 ∧
          p.data = memSlice d.mem (w.page / 16 * 65536) 65536) ∧
    (∀ ok, rawSlots * 4 ≤ 100 * d.rd F.FLS_SPACE_FREE ch ∨ fenced ch = true ∨ stale = [] →
      exec (.garbageCollection ch ok) s = .next s) ∧
    (∀ b, 100 * d.rd F.FLS_SPACE_FREE ch < rawSlots * 4 → fenced ch = false → ch < s.variant.channels → stale ≠ [] →
      (∀ x ∈ stale, x / Config.blockSlots = b) → (∀ x ∈ d.mapped s.variant ch, x.2 / Config.blockSlots ≠ b) →
      (∀ p ∈ d.progs, chan (p.unit * 65536) = ch → p.slot / Config.blockSlots ≠ b) → ∀ ok,
      ∃ t, exec (.garbageCollection ch ok) s = .next t ∧ t.sameStore s ∧ t.dev.fmap = d.fmap ∧
        (tget t.dev.stale ch).getD [] = [] ∧
        if ok then t.dev.rd F.FLS_SPACE_FREE ch = (d.rd F.FLS_SPACE_FREE ch + stale.length) % 2 ^ 27 else
          t.dev.rd F.FLS_SPACE_BAD ch = min (d.rd F.FLS_SPACE_BAD ch + 1) 1023) ∧
    (∃ t, exec .flashBudgetAccrual s = .next t ∧ t.sameStore s ∧ t.dev.out = d.out ∧
      ((d.instances F.TIR_KFRATE_RATE).Nodup → ∀ k,
        let x := (tget d.budFrac k).getD 0 + d.rd F.TIR_KFRATE_RATE k
        let top : Int := d.rd F.TIR_KFRATE_BURST k
        t.dev.budget k = if d.budget k < top ∧ k ∈ d.instances F.TIR_KFRATE_RATE then
          min top (d.budget k + ((x / 1000 : Nat) : Int)) else d.budget k)) ∧
    (d.portHeld = [] → (∀ k (u : Thread), (k, u) ∈ d.threads → ∀ a ∈ u.accs, a.held = false) →
      ∃ t, exec .leashAccrual s = .next t ∧ t.sameStore s ∧ t.dev.out = d.out ∧
      ∀ l ∈ [lshFn, lshService, lshPort], (d.instances l.rate).Nodup → ∀ i,
        let x : Int := min (d.balance l i * 256 + d.rd l.frac i + d.rd l.rate i) (d.rd l.burst i * 256)
        if i ∈ d.instances l.rate then t.dev.balance l i = x / 256 ∧ (t.dev.rd l.frac i : Int) = x % 256
        else t.dev.balance l i = d.balance l i ∧ t.dev.rd l.frac i = d.rd l.frac i) ∧
    ∃ t, exec (.leakPeriod kind) s = .next t ∧ t.sameStore s ∧ t.dev.regs = d.regs ∧ ∀ l : Leak, l ∈ t.dev.leaks ↔
      if l.kind = kind then 1 ≤ l.c ∧ { l with c := l.c + 1 } ∈ d.leaks else l ∈ d.leaks

/-- RAS_FENCE is ignored while BUSY, refused with RESULT 3 for what is absent or must stay, and otherwise fences: a
bay's queued descriptors go back, a link retires, a slice keeps no entry of a line that is not busy. A return is done
at once, or after a test when the fault lasts; the test's end shows its result and returns a bay only on a pass.
PWR_DCTL.REQ has no effect on an absent domain; one that may not be switched off shows ERR 1, one whose condition
fails ERR; with nothing turning a domain starts, a slice goes off and a bay drains; a draining bay without threads is
off and its scratch gone. A domain that has started is ON: a slice fenced, walkers not, links DOWN. -/
def Obligations.ResourcesAreFencedAndSwitched : Prop :=
  ∀ (s : State) kind inst dom,
    let d := s.dev
    let fenced := fun (t : State) k => if k = 0 then t.dev.bitAt F.RAS_FMASK_BAYS 0 inst else if k = 2 then
      t.dev.bitAt F.RAS_FLMASK_FLASH 0 inst else t.dev.bitAt F.RAS_FMASK_SLICES 0 inst
    let refused := fencePresent s.variant kind inst = false ∨ d.fenceRefused kind inst = true
    let still := (∀ k, d.domState k < 2) ∧ d.resetTr = none ∧ d.swQ = []
    (d.pf0Up = true → kind < 8 → inst < 128 →
      (d.rd F.RAS_FENCE_BUSY = 1 → exec (.fenceAndTest kind inst) s = .next s ∧ exec (.returnResource kind inst) s = .next s) ∧
      (d.rd F.RAS_FENCE_BUSY = 0 → refused → ∃ t, exec (.fenceAndTest kind inst) s = .next t ∧ t.sameStore s ∧
        t.dev.rd F.RAS_FENCE_RESULT = 3 ∧ t.dev.rd F.RAS_FENCE_BUSY = 0 ∧ ∀ k, fenced t k = fenced s k) ∧
      (d.rd F.RAS_FENCE_BUSY = 0 → ¬refused → ∃ t, exec (.fenceAndTest kind inst) s = .next t ∧ t.sameStore s ∧
        t.dev.rd F.RAS_FENCE_BUSY = 1 ∧ t.dev.fence = some (kind, inst, 1) ∧ (kind ≠ 1 → fenced t kind = true) ∧
        (kind = 0 → ∀ j ∈ t.dev.jobs, j.place ≠ .queued inst) ∧
        (kind = 1 → d.lstate inst ≠ 5 → d.lstate inst ≠ 0 → (t.dev.lk inst).retiring = true) ∧
        (kind = 3 → ∀ k e, (k, e) ∈ t.dev.dir → k / 131072 = inst → d.busy e.line = true)) ∧
      (d.rd F.RAS_FENCE_BUSY = 0 → fencePresent s.variant kind inst = true → ∃ t, exec (.returnResource kind inst) s = .next t ∧
        if kind * 128 + inst ∈ d.lasting then t.dev.rd F.RAS_FENCE_BUSY = 1 ∧ t.dev.fence = some (kind, inst, 2) ∧
          ∀ k, fenced t k = fenced s k
        else t.dev.rd F.RAS_FENCE_RESULT = 1 ∧ (d.conflict = [] → kind ≠ 1 → fenced t kind = false) ∧
          (kind = 1 → d.lstate inst = 5 → t.dev.lstate inst = 1))) ∧
    (∀ pass, d.fence = none → exec (.selfTestEnd pass) s = .next s) ∧
    (∀ pass op, d.fence = some (kind, inst, op) →
      (d.testable s.cx kind inst = false → exec (.selfTestEnd pass) s = .next s) ∧
      (d.testable s.cx kind inst = true → ∃ t, exec (.selfTestEnd pass) s = .next t ∧ t.dev.fence = none ∧
        t.dev.rd F.RAS_FENCE_BUSY = 0 ∧ t.dev.rd F.RAS_FENCE_RESULT = (if pass then 1 else 2) ∧
        (op ≠ 1 → kind = 0 → inst < 32 → fenced t 0 = if pass then false else fenced s 0) ∧
        (op = 1 ∨ pass = false → t.dev.lasting = d.lasting))) ∧
    (d.pf0Up = true → ∀ on,
      (domPresent s.variant dom = false → exec (.domainSwitch dom on) s = .next s) ∧
      (dom = 108 ∨ 110 ≤ dom ∧ dom < 113 → exec (.domainSwitch dom true) s = .next s ∧
        exec (.domainSwitch dom false) s = .next (s.withDev (d.wr F.PWR_DCTL_ERR dom 1))) ∧
      (domPresent s.variant dom = true → dom ≠ 108 → dom < 110 →
        (d.rd F.PWR_DCTL_REQ dom = 1 → d.offErr dom ≠ 0 → exec (.domainSwitch dom false) s =
          .next (s.withDev (d.wr F.PWR_DCTL_ERR dom (d.offErr dom)))) ∧
        (still → d.domState dom = 0 → ∃ t, exec (.domainSwitch dom true) s = .next t ∧ t.sameStore s ∧ t.dev.domState dom = 3 ∧
          t.dev.rd F.PWR_DCTL_REQ dom = 1) ∧
        (still → d.domState dom = 1 → d.offErr dom = 0 → ∃ t, exec (.domainSwitch dom false) s = .next t ∧
          t.dev.rd F.PWR_DCTL_REQ dom = 0 ∧ (80 ≤ dom → dom < 96 → t.dev.domState dom = 0) ∧
          (dom < 32 → t.dev.domState dom = 2 ∧ ∀ j ∈ t.dev.jobs, j.place ≠ .queued dom)))) ∧
    (d.domState dom ≠ 2 ∨ dom < 32 ∧ d.threadsOf dom ≠ [] → exec (.domainDrainEnd dom) s = .next s) ∧
    (d.domState dom = 2 → dom < 32 → d.threadsOf dom = [] → (tget d.comb dom).getD [] = [] → d.swQ = [] →
      ∃ t, exec (.domainDrainEnd dom) s = .next t ∧ t.sameStore s ∧ t.dev.domState dom = 0 ∧
        ∀ a, a / 524288 / 8 = dom → tget t.dev.scratch a = none) ∧
    (d.domState dom ≠ 3 → exec (.domainSwitchOnEnd dom) s = .next s) ∧
    (d.domState dom = 3 → d.swQ = [] → ∃ t, exec (.domainSwitchOnEnd dom) s = .next t ∧ t.sameStore s ∧ t.dev.domState dom = 1 ∧
      (80 ≤ dom → dom < 96 → t.dev.bitAt F.RAS_FMASK_SLICES 0 (dom - 80) = true) ∧
      (96 ≤ dom → dom < 100 → t.dev.bitAt F.RAS_FMASK_WALKERS 0 (dom - 96) = false) ∧
      (40 ≤ dom → dom < 64 → ∀ i < 4, t.dev.lstate (4 * (dom - 40) + i) = 1))

/-- RAS_RESET.GO and RESET# ask for a module reset with their cause, or are counted as absorbed. A ring reset that is
not drained after 500 ms asks for one, with 4 events on the bay that still runs. A reset that may start shows
RESETTING, its cause, and one reset more; step 3 clears the lock, takes the CXL link down, ends what was at the homes
and in flight, and changes no byte; without a request the row is no event. A step past its limit, and a device that
stops answering, lose the module: LOST, its reason, the link down, the alert, nothing running. -/
def Obligations.ResetsAndLossesOfTheModule : Prop :=
  ∀ (s : State),
    let d := s.dev
    let asked := fun n => Host.Outcome.next (s.withDev { d with wanted := d.wanted ++ [.moduleReset n] })
    let counted := Host.Outcome.next (s.withDev (d.inc F.RAS_STAT_ABSORBED 0))
    let lost := fun (t : State) n => t.dev.lostFor = n ∧ t.dev.rd F.RAS_STAT_MSTATE = 2 ∧ t.dev.rd F.CXP_LSTAT_UP = 0 ∧
      bit t.dev.alerts 7 = true ∧ t.dev.running = [] ∧ t.dev.wanted = [] ∧ t.sameStore s
    (d.pf0Up = true → s.mayReset → exec .rasResetGo s = asked 3) ∧
    (d.pf0Up = true → d.lostFor = 0 → d.rd F.PWR_SEQ_PHASE < 8 → d.resetTr ≠ none → exec .rasResetGo s = counted) ∧
    (d.pf0Up = false → exec .rasResetGo s = .next s) ∧
    (d.rd F.RAS_STAT_MSTATE = 1 → d.rd F.PWR_SEQ_PHASE < 8 → exec .resetPin s = counted) ∧
    (d.rd F.RAS_STAT_MSTATE ≠ 1 → s.mayReset → exec .resetPin s = asked 4) ∧
    (∀ r, d.active = some (.ringReset r) →
      let js := d.jobs.filter fun (j : Job) => j.ring = r
      let bay := (js.findSome? d.whereRuns).map fun (x : Nat × Nat × Nat) => x.1
      (s.tmr < d.runsSince (.ringReset r) + 50000000 → exec .escalation s = .next s) ∧
      (js ≠ [] → d.runsSince (.ringReset r) + 50000000 ≤ s.tmr → s.mayReset →
        (∀ b, bay = some b → d.leakOf 2 b + 4 < d.leakT 2) → ∃ t, exec .escalation s = .next t ∧ t.sameStore s ∧
          t.dev.wanted = d.wanted ++ [.moduleReset 1] ∧ ∀ b, bay = some b → t.dev.leakOf 2 b = d.leakOf 2 b + 4)) ∧
    (∀ reach sigs intact pages,
      (d.resetTr = none → (∀ t ∈ d.wanted, t.prio ≠ 1) → exec (.moduleReset reach sigs intact pages) s = .next s) ∧
      (∀ n, d.resetTr = none → d.wanted.find? (fun t => t.prio = 1) = some (.moduleReset n) → d.canStart (.moduleReset n) = true →
        n < 16 → ∃ t, exec (.moduleReset 1 sigs intact pages) s = .next t ∧ t.lock = s.lock ∧ t.dev.rstStep = 2 ∧
          t.dev.rd F.RAS_STAT_MSTATE = 1 ∧ t.dev.rd F.RAS_STAT_CAUSE = n ∧ t.dev.mem = d.mem ∧
          t.dev.rd F.RAS_STAT_RESETS = (d.rd F.RAS_STAT_RESETS + 1) % 2 ^ 32) ∧
      (d.resetTr ≠ none → d.rstStep = 3 → ∃ t, exec (.moduleReset 3 sigs intact pages) s = .next t ∧ t.lock = false ∧
        t.dev.rstStep = 4 ∧ t.sameStore s ∧ t.dev.rd F.CXP_LSTAT_UP = 0 ∧ t.dev.trackers = [] ∧ t.dev.fills = [] ∧
        t.dev.reqs = [] ∧ t.dev.sessions = [] ∧ ∀ k, t.dev.rd F.KNL_INFLT_COUNT k = 0)) ∧
    (d.resetTr = none ∨ s.tmr ≤ d.rstAt + d.resetLimit → exec .resetStepLimit s = .next s) ∧
    (d.resetTr ≠ none → d.rstStep ≠ 0 → d.rstAt + d.resetLimit < s.tmr → d.lostFor = 0 →
      ∃ t, exec .resetStepLimit s = .next t ∧ lost t 3) ∧
    (d.pwrgd = false → exec .deviceLost s = .next s) ∧
    (d.pwrgd = true → d.lostFor = 0 → ∃ t, exec .deviceLost s = .next t ∧ lost t 5)

/-- With the CXL link up: SYS_LOCK sets the lock. A FREE window takes its fields and opens, or shows its cause; one in
use shows 4. A fault ring is enabled with its counts at 0 only when size, vector and range are allowed. TIR_CTL.EN is
refused with ERR when the regions do not fit. A quota that fits is stored for an ACTIVE kennel, else QERR. A leash
write zeroes its balance; RAS_LKCFG clears its kind's counters, none under the lock; TRACE_EN empties the buffer. The
probes return and keep the words of their entry. A read returns the register and clears its RC fields, a window read
those of the lowest instance; a window write reaches every instance of the set and no other; a write obeys RW, RWL and
W1C. -/
def Obligations.RegisterAccessesFollowTheirTypes : Prop :=
  ∀ (s : State) i v, s.dev.pf0Up = true →
    let d := s.dev
    let part := fun (f : Fld) => v / 2 ^ f.lo % 2 ^ f.w
    let probe := 0x1C00030
    let redir := fun k => (((tget d.redir (d.rd F.RTV_RPROBE_ENTRY)).map fun (r : Redir) => r.words).getD []).getD k 0 % 2 ^ 64
    let write := fun off => exec (.registerWrite .pf0 off 8 v false false {}) s
    exec .sysLock s = .next { s with lock := true } ∧
    (i < 8192 → d.tdiLocked (d.rd F.XLT_WCTL_COLLAR i) = false →
      (d.rd F.XLT_WCTL_ST i ≠ 0 → exec (.windowOpen i v) s = .next (s.withDev (d.wr F.XLT_WCTL_ERR i 4))) ∧
      (d.rd F.XLT_WCTL_ST i = 0 → ∃ t, exec (.windowOpen i v) s = .next t ∧ t.sameStore s ∧
        (∀ f ∈ [F.XLT_WCTL_SIZE, F.XLT_WCTL_COLLAR, F.XLT_WCTL_R, F.XLT_WCTL_W, F.XLT_WCTL_A, F.XLT_WCTL_SRCMODE,
          F.XLT_WCTL_SRCNODE], t.dev.rd f i = part f) ∧
        t.dev.rd F.XLT_WCTL_ST i = (if t.dev.windowErr i = 0 then 1 else 0) ∧ t.dev.rd F.XLT_WCTL_ERR i = t.dev.windowErr i)) ∧
    (i ≤ 512 → d.tdiLocked i = false →
      (d.rd F.FN_FRCTL_EN i = 1 → exec (.faultRingEnable i v) s = .next s) ∧
      (d.rd F.FN_FRCTL_EN i = 0 →
        if part F.FN_FRCTL_SIZE < 4 ∨ 12 < part F.FN_FRCTL_SIZE ∨ d.rd F.FN_VEC_COUNT i ≤ part F.FN_FRCTL_VECTOR ∨
          ringFits (part F.FN_FRCTL_PLACE = 1) (d.rd F.FN_FRBASE_ADDR i * 4096) (64 * 2 ^ part F.FN_FRCTL_SIZE) = false
        then exec (.faultRingEnable i v) s = .next s
        else ∃ t, exec (.faultRingEnable i v) s = .next t ∧ t.sameStore s ∧ t.dev.rd F.FN_FRCTL_EN i = 1 ∧
          t.dev.rd F.FN_FRPTR_FTAIL i = 0 ∧ t.dev.rd F.FN_FRPTR_FHEAD i = 0 ∧
          ∀ f ∈ [F.FN_FRCTL_PLACE, F.FN_FRCTL_SIZE, F.FN_FRCTL_VECTOR], t.dev.rd f i = part f)) ∧
    (s.lock = false → d.rd F.TIR_CTL_EN = 0 → 5 ≤ d.rd F.PWR_SEQ_PHASE → ∃ t, exec (.tierEnable v) s = .next t ∧ t.sameStore s ∧
      if dramGiB s.variant < d.regionsGiB s.variant then t.dev.rd F.TIR_CTL_ERR = 2 ∧ t.dev.rd F.TIR_CTL_EN = 0
      else if dramGiB s.variant - d.regionsGiB s.variant < 16 then t.dev.rd F.TIR_CTL_ERR = 1 ∧ t.dev.rd F.TIR_CTL_EN = 0
      else t.dev.rd F.TIR_CTL_ERR = 0 ∧ t.dev.rd F.TIR_CTL_EN = 1) ∧
    (i < 2048 → ∀ k, k < 4 →
      let q := [F.TIR_KPIN_QUOTA, F.TIR_KLC_SHARE, F.TIR_KSHD_QUOTA, F.TIR_KUNDO_QUOTA].getD k F.TIR_KPIN_QUOTA
      exec (.quotaWrite i k v) s = .next (if d.rd F.KNL_BIND_STATE i ≠ 1 then s
        else if d.quotaFits q i (part q) then s.withDev (d.wr q i (part q)) else s.withDev (d.wr F.TIR_CTL_QERR 0 1))) ∧
    (i < 513 → ∃ t, exec (.leashWrite 0 i false v) s = .next t ∧ t.sameStore s ∧ t.dev.rd F.LSHF_TOK_BAL i = 0 ∧
      t.dev.rd F.LSHF_TOK_FRAC i = 0 ∧ ∀ f ∈ [F.LSHF_RATE_RATE, F.LSHF_RATE_BURST, F.LSHF_RATE_UNLIM], t.dev.rd f i = part f) ∧
    (i < 7 → ∃ t, exec (.rasLkcfgWrite i v) s = .next t ∧
      if s.lock then t = s else t.dev.leaks = d.leaks.filter (fun (l : Leak) => l.kind ≠ i) ∧
        ∀ f ∈ [F.RAS_LKCFG_THRESH, F.RAS_LKCFG_WINDOW], t.dev.rd f i = part f) ∧
    (i < 32 → d.rd F.SHP_CTL_TRACE_EN i = 0 → ∃ t, exec (.traceEnable i v) s = .next t ∧ t.sameStore s ∧
      t.dev.rd F.SHP_CTL_TRACE_EN i = 1 ∧ t.dev.rd F.SHP_CTL_TRACE_THR i = part F.SHP_CTL_TRACE_THR ∧
      t.dev.rd F.SHP_TRPTR_NEXT i = 0 ∧ ∀ k e, (k, e) ∈ t.dev.trace → k / 1024 ≠ i) ∧
    (i < 16 →
      let w := ((tget d.dir ((i * 8192 + d.rd F.PTR_PROBE_SET i) * 16 + d.rd F.PTR_PROBE_WAY i)).map
        fun (e : DirEnt) => e.words).getD (0, 0)
      ∃ t, exec (.ptrPdata0 i) s = .next t ∧ t.sameStore s ∧ t.dev.out = d.out ++ [.value (w.1 % 2 ^ 64)] ∧
        t.dev.rd F.PTR_PDATA1_WORD1 i = w.2 % 2 ^ 64) ∧
    (d.rd F.SHP_CLSTAT_LOADED (d.rd F.SHP_TPROBE_CLUSTER) = 1 → d.rd F.SHP_TPROBE_SLOT < d.slots →
      let w := fun k => (tget d.steps (2 * d.rd F.SHP_TPROBE_SLOT + k)).getD 0 % 2 ^ 64
      ∃ t, exec .shpTdata0 s = .next t ∧ t.sameStore s ∧ t.dev.out = d.out ++ [.value (w 0)] ∧ t.dev.rd F.SHP_TDATA1_WORD1 = w 1) ∧
    (∃ t, exec .rtvRdata0 s = .next t ∧ t.sameStore s ∧ t.dev.out = d.out ++ [.value (redir 0)] ∧ t.dev.rd F.RTV_RDATA1_WORD1 =
        redir 1 ∧ t.dev.rd F.RTV_RDATA2_WORD2 = redir 2 ∧ t.dev.rd F.RTV_RDATA3_WORD3 = redir 3) ∧
    (∀ off (r : RegDef), off % 8 = 0 → off / 2 ^ 22 ≠ 6 → windowOf off = none → regAt off = some (r, i) →
      instPresent s.variant r.pres i = true → r.id ∉ [Reg.PTR_PDATA0, Reg.SHP_TDATA0, Reg.RTV_RDATA0, Reg.SHP_CYCLE] →
      let shown := Out.value (d.regWord s.cx r i % 2 ^ 64)
      ((∀ f ∈ r.flds, f.acc ≠ .rc) → exec (.registerReadClear .pf0 off 8 false) s = .next (s.shows shown)) ∧
      ∃ t, exec (.registerReadClear .pf0 off 8 false) s = .next t ∧ t.dev.out = d.out ++ [shown] ∧ t.sameStore s ∧
        ∀ f ∈ r.flds, f.acc = .rc → f.lo + f.w ≤ 64 → t.dev.rd f i = 0) ∧
    (∃ t, exec (.windowWrite (probe + 0x300000) 8 v) s = .next t ∧ ∀ k < 16, t.dev.rd F.PTR_PROBE_SET k = part F.PTR_PROBE_SET) ∧
    (∀ g, g < 8 → ∃ t, exec (.windowWrite (probe + 0x380000 + g * 0x10000) 8 v) s = .next t ∧ t.sameStore s ∧
      ∀ k < 16, t.dev.rd F.PTR_PROBE_SET k = if d.bitAt F.PTR_GMASK_MASK g k then part F.PTR_PROBE_SET
        else d.rd F.PTR_PROBE_SET k) ∧
    exec (.windowRead (probe + 0x300000) 8) s = exec (.registerReadClear .pf0 probe 8 false) s ∧
    (∀ off width, windowOf off = none → exec (.windowRead off width) s = .next s ∧ exec (.windowWrite off width v) s = .next s) ∧
    (write 0x10 = .next { s with lock := s.lock || bit v 0 } ∧
      write 0x2C00000 = .next (if s.lock then s else s.withDev (d.wr F.LSH_CFG_OPCOST 0 (v % 2 ^ 16))) ∧
      ∃ t, write 0x5800008 = .next t ∧ t.dev.rd F.MAP_STAT_REJECTED = (if bit v 0 then 0 else d.rd F.MAP_STAT_REJECTED) ∧
        t.dev.rd F.MAP_STAT_CAUSE = d.rd F.MAP_STAT_CAUSE)

/-- For every command c and state s: a step of s with c at the front of its queue is exec of c on s with the queue's
rest. On an empty queue the step changes TMR alone, which counts by 1 and wraps at 2⁶⁴ while the always-on domain is
powered, and does not count while it is off; that a step on an empty queue is one tick is the model's choice
(assumption 3). -/
def Obligations.StepTakesTheFrontCommand : Prop :=
  ∀ (s : State) c r, step { s with pending := c :: r } = exec c { s with pending := r } ∧
    (s.pending = [] → step s = .next { s with tmr := if s.dev.aon then (s.tmr + 1) % 2 ^ 64 else s.tmr })

/-- For every command and every state exec answers a next state, with the queue and the variant as they were.
SYS_LOCK.LOCK is as it was unless the command is a power-on, a module reset, or the start-up after the input has
recovered, which the model counts as a power-on (assumption 5), and may then be 0; or is a write of SYS_LOCK while the
CXL link is up, and may then be 1. TMR is as it was unless the command is a power-on of a module whose always-on
domain was off, and is then 0: no module reset and no domain switch stops or resets it. -/
def Obligations.EveryCommandAnswersAndOnlySomeTouchTheLock : Prop :=
  ∀ (c : Instr) (s : State), ∃ t, exec c s = .next t ∧ t.pending = s.pending ∧ t.variant = s.variant ∧
    (t.lock = s.lock ∨ t.lock = false ∧ mayUnlock c = true ∨ t.lock = true ∧ mayLock c = true ∧ s.dev.pf0Up = true) ∧
    (t.tmr = s.tmr ∨ t.tmr = 0 ∧ mayRestartTimer c = true ∧ s.dev.aon = false)

/-- The invariant is that TMR holds a 64-bit count. From every state that meets it, a step answers a next state that
meets it; the variant, which the fuses fix, is the same, and the queue has lost its first command and no other. Where
the lock is set and the front command is no start and no module reset, the lock is still set. -/
def Obligations.StepKeepsTheTimerTheVariantAndTheQueueInOrder : Prop :=
  ∀ s : State, s.tmr < 2 ^ 64 → ∃ t, step s = .next t ∧ t.tmr < 2 ^ 64 ∧ t.variant = s.variant ∧ t.pending = s.pending.tail ∧
    (s.lock = true → (∀ c ∈ s.pending.head?, mayUnlock c = false) → t.lock = true)

/-- State.reset is the machine before its first power-on: no command waits, the lock is clear, TMR is 0 and within 64
bits, no domain is powered, the memories are in their canonical form and list nothing, no line has a copy outside,
nothing has been sent, and every register field reads the reset value of its row; DEVICE 0x7400, T of the leaky
counters 16 with a period of 1,000 ms, OPCOST 16, BURST 16,384 with UNLIM 1, DIRTY_HI 50, and the regions of R327
among them. That the state is the one before power-on is the model's choice (assumption 2). -/
def Obligations.ResetStateIsTheMachineBeforePowerOn : Prop :=
  State.reset.pending = [] ∧ State.reset.lock = false ∧ State.reset.tmr = 0 ∧ State.reset.tmr < 2 ^ 64 ∧
    State.reset.dev.aon = false ∧ State.reset.memWf = true ∧ State.reset.dev.mem = [] ∧ State.reset.dev.out = [] ∧
    (∀ l, State.reset.dev.ent l = none) ∧ (∀ k, State.reset.dev.domState k = 0) ∧
    (∀ (f : Fld) i, State.reset.dev.rd f i = f.rst % 2 ^ f.w) ∧
    ∀ p ∈ [(F.SYS_ID_DEVICE, 0x7400), (F.RAS_LKCFG_THRESH, 16), (F.RAS_LKCFG_WINDOW, 1000), (F.LSH_CFG_OPCOST, 16),
        (F.LSHF_RATE_BURST, 16384), (F.LSHF_RATE_UNLIM, 1), (F.TIR_CTL_DIRTY_HI, 50), (F.TIR_REGION_UNDO, 32),
        (F.TIR_REGION_SHADOW, 32), (F.TIR_REGION_PINNED, 256)], ∀ i, State.reset.dev.rd p.1 i = p.2
end

