-- ==== Sys2Proof/Laws/Tables.lean ====
section
/-! SUPPORT. Laws of the sparse tables and of the register fields: what is read after a write. -/
namespace Sys2Proof.Machine

theorem tget_tset_same {α : Type} (t : Tbl α) (k : Nat) (v : α) : tget (tset t k v) k = some v := by
  induction t with
  | nil => simp [tset, tget]
  | cons x r ih =>
    obtain ⟨j, u⟩ := x
    by_cases h : k < j
    · simp [tset, tget, h]
    · by_cases h2 : j = k
      · simp [tset, tget, h2]
      · simp [tset, tget, h, h2, ih]

theorem tget_tset_ne {α : Type} (t : Tbl α) (k j : Nat) (v : α) (h : j ≠ k) : tget (tset t k v) j = tget t j := by
  have hk : k ≠ j := Ne.symm h
  induction t with
  | nil => simp [tset, tget, hk]
  | cons x r ih =>
    obtain ⟨i, u⟩ := x
    by_cases h1 : k < i
    · simp [tset, tget, h1, hk]
    · by_cases h2 : i = k
      · subst h2
        simp [tset, tget, hk]
      · simp [tset, tget, h1, h2, ih]

theorem tget_tdel_same {α : Type} (t : Tbl α) (k : Nat) : tget (tdel t k) k = none := by
  induction t with
  | nil => simp [tdel, tget]
  | cons x r ih =>
    obtain ⟨j, u⟩ := x
    by_cases h : j = k
    · simp [tdel, h, ih]
    · simp [tdel, tget, h, ih]

theorem tget_tdel_ne {α : Type} (t : Tbl α) (k j : Nat) (h : j ≠ k) : tget (tdel t k) j = tget t j := by
  induction t with
  | nil => simp [tdel, tget]
  | cons x r ih =>
    obtain ⟨i, u⟩ := x
    by_cases h1 : i = k
    · subst h1
      simp [tdel, tget, Ne.symm h, ih]
    · simp [tdel, tget, h1, ih]

/-- What is read of a key that has been put. -/
theorem getD_tput_same {α : Type} [DecidableEq α] (d v : α) (t : Tbl α) (k : Nat) : (tget (tput d t k v) k).getD d = v := by
  by_cases h : v = d
  · simp [tput, h, tget_tdel_same]
  · simp [tput, h, tget_tset_same]

/-- Putting a key changes no other. -/
theorem tget_tput_ne {α : Type} [DecidableEq α] (d v : α) (t : Tbl α) (k j : Nat) (h : j ≠ k) :
    tget (tput d t k v) j = tget t j := by
  by_cases hv : v = d
  · simp [tput, hv, tget_tdel_ne t k j h]
  · simp [tput, hv, tget_tset_ne t k j v h]

/-- A field reads what was written to it, at its width. -/
@[simp] theorem Dev.rd_wr_same (d : Dev) (f : Fld) (i v : Nat) : (d.wr f i v).rd f i = v % 2 ^ f.w := by
  simp only [Dev.rd, Dev.wr, getD_tput_same, Nat.mod_mod]

/-- A field reads a value of its width. -/
theorem Dev.rd_lt (d : Dev) (f : Fld) (i : Nat) : d.rd f i < 2 ^ f.w := Nat.mod_lt _ (Nat.two_pow_pos _)

/-- A write changes no field with another home. -/
theorem Dev.rd_wr_ne (d : Dev) (f g : Fld) (i j v : Nat) (h : g.key j ≠ f.key i) : (d.wr f i v).rd g j = d.rd g j := by
  simp only [Dev.rd, Dev.wr, tget_tput_ne _ _ _ _ _ h]

/-- Fields of different register groups have different homes. -/
theorem Fld.key_ne_of_reg {f g : Fld} (i j : Nat) (hf : f.reg < 256) (hg : g.reg < 256) (hfl : f.lo < 64) (hgl : g.lo < 64)
    (h : g.reg ≠ f.reg) : g.key j ≠ f.key i := by
  unfold Fld.key
  omega

/-- Fields that start at different bits of a register have different homes. -/
theorem Fld.key_ne_of_lo {f g : Fld} (i j : Nat) (hfl : f.lo < 64) (hgl : g.lo < 64) (h : g.lo ≠ f.lo) :
    g.key j ≠ f.key i := by
  unfold Fld.key
  omega

/-- A field of different instances has different homes. -/
theorem Fld.key_ne_of_inst {f : Fld} {i j : Nat} (h : j ≠ i) : f.key j ≠ f.key i := by
  unfold Fld.key
  omega

/-- A record update that keeps the registers keeps every field. -/
@[simp] theorem Dev.rd_mk (d : Dev) (a : StoreSt) (b : WorkSt) (c : GroupSt) (e : SysSt) (o : List Out) (f : Fld) (i : Nat) :
    (Dev.mk a b c e d.regs o).rd f i = d.rd f i := rfl

end Sys2Proof.Machine
end

