-- ==== Sys2Proof/Laws/Memory.lean ====
section
/-! SUPPORT. The canonical form of a memory, which every memory operation keeps, and reads after writes. -/
namespace Sys2Proof.Machine

/-- Every key of a table lies above k. -/
def above {α : Type} (k : Nat) (t : Tbl α) : Bool := t.all fun (j, _) => decide (k < j)

theorem rising_cons {α : Type} (k : Nat) (v : α) (r : Tbl α) :
    rising ((k, v) :: r) = true ↔ above k r = true ∧ rising r = true := by
  induction r generalizing k v with
  | nil => simp [rising, above]
  | cons x r ih =>
    obtain ⟨j, u⟩ := x
    have hr : rising ((k, v) :: (j, u) :: r) = (decide (k < j) && rising ((j, u) :: r)) := rfl
    rw [hr]
    constructor
    · intro h
      simp only [Bool.and_eq_true, decide_eq_true_eq] at h
      refine ⟨?_, h.2⟩
      have h2 := (ih j u).mp h.2
      simp only [above, List.all_cons, Bool.and_eq_true, decide_eq_true_eq]
      refine ⟨h.1, ?_⟩
      have ha := h2.1
      simp only [above, List.all_eq_true, decide_eq_true_eq] at ha ⊢
      intro x hx
      exact Nat.lt_trans h.1 (ha x hx)
    · intro h
      simp only [above, List.all_cons, Bool.and_eq_true, decide_eq_true_eq] at h ⊢
      exact ⟨h.1.1, h.2⟩

theorem above_tset {α : Type} (k j : Nat) (v : α) (t : Tbl α) (h : above k t = true) (hj : k < j) :
    above k (tset t j v) = true := by
  induction t with
  | nil => simp [tset, above, hj]
  | cons x r ih =>
    obtain ⟨i, u⟩ := x
    simp only [above, List.all_cons, Bool.and_eq_true, decide_eq_true_eq] at h
    unfold tset
    split
    · simp only [above, List.all_cons, Bool.and_eq_true, decide_eq_true_eq]
      exact ⟨hj, h.1, h.2⟩
    · split
      · simp only [above, List.all_cons, Bool.and_eq_true, decide_eq_true_eq]
        exact ⟨hj, h.2⟩
      · have h2 := ih h.2
        simp only [above, List.all_cons, Bool.and_eq_true, decide_eq_true_eq] at h2 ⊢
        exact ⟨h.1, h2⟩

theorem above_of_all {α : Type} (k : Nat) (t u : Tbl α) (h : above k t = true) (hs : ∀ x ∈ u, x ∈ t) : above k u = true := by
  simp only [above, List.all_eq_true] at h ⊢
  exact fun x hx => h x (hs x hx)

theorem rising_tset {α : Type} (t : Tbl α) (j : Nat) (v : α) (h : rising t = true) : rising (tset t j v) = true := by
  induction t with
  | nil => simp [tset, rising]
  | cons x r ih =>
    obtain ⟨i, u⟩ := x
    have hc := (rising_cons i u r).mp h
    unfold tset
    split
    · rename_i hlt
      refine (rising_cons j v _).mpr ⟨?_, h⟩
      have ha := hc.1
      simp only [above, List.all_cons, Bool.and_eq_true, decide_eq_true_eq, List.all_eq_true] at ha ⊢
      exact ⟨hlt, fun x hx => Nat.lt_trans hlt (ha x hx)⟩
    · split
      · rename_i heq
        subst heq
        exact (rising_cons i v r).mpr hc
      · rename_i h1 h2
        exact (rising_cons i u _).mpr ⟨above_tset i j v r hc.1 (by omega), ih hc.2⟩

theorem rising_filter {α : Type} (t : Tbl α) (p : Nat × α → Bool) (h : rising t = true) : rising (t.filter p) = true := by
  induction t with
  | nil => simp [rising]
  | cons x r ih =>
    obtain ⟨i, u⟩ := x
    have hc := (rising_cons i u r).mp h
    by_cases hp : p (i, u) = true
    · rw [List.filter_cons_of_pos hp]
      exact (rising_cons i u _).mpr ⟨above_of_all i r _ hc.1 fun x hx => (List.mem_filter.mp hx).1, ih hc.2⟩
    · rw [List.filter_cons_of_neg hp]
      exact ih hc.2

theorem tdel_eq_filter {α : Type} (t : Tbl α) (k : Nat) : tdel t k = t.filter fun x => decide (x.1 ≠ k) := by
  induction t with
  | nil => rfl
  | cons x r ih =>
    obtain ⟨i, u⟩ := x
    by_cases h : i = k
    · simp [tdel, h, ih]
    · simp [tdel, h, ih]

theorem mem_tset {α : Type} (t : Tbl α) (j : Nat) (v : α) (x : Nat × α) (h : x ∈ tset t j v) : x = (j, v) ∨ x ∈ t := by
  induction t with
  | nil => simpa [tset] using h
  | cons y r ih =>
    obtain ⟨i, u⟩ := y
    unfold tset at h
    split at h
    · rcases List.mem_cons.mp h with h | h
      · exact .inl h
      · exact .inr h
    · split at h
      · rcases List.mem_cons.mp h with h | h
        · exact .inl h
        · exact .inr (List.mem_cons_of_mem _ h)
      · rcases List.mem_cons.mp h with h | h
        · exact .inr (h ▸ List.mem_cons_self)
        · exact (ih h).imp id (List.mem_cons_of_mem _)

/-- Writing one byte keeps the canonical form. -/
theorem Memory.wf_tput (t : Tbl Byte) (a : Nat) (v : Byte) (h : Memory.wf t = true) : Memory.wf (tput 0 t a v) = true := by
  simp only [Memory.wf, Bool.and_eq_true, List.all_eq_true] at h ⊢
  by_cases hv : v = 0
  · simp only [tput, hv, if_true, tdel_eq_filter]
    exact ⟨rising_filter _ _ h.1, fun x hx => h.2 x (List.mem_filter.mp hx).1⟩
  · simp only [tput, hv, if_false]
    refine ⟨rising_tset _ _ _ h.1, fun x hx => ?_⟩
    rcases mem_tset _ _ _ _ hx with rfl | hx
    · simpa using hv
    · exact h.2 x hx

/-- Clearing a range keeps the canonical form. -/
theorem Memory.wf_memClear (t : Tbl Byte) (a n : Nat) (h : Memory.wf t = true) : Memory.wf (memClear t a n) = true := by
  simp only [Memory.wf, Bool.and_eq_true, List.all_eq_true] at h ⊢
  exact ⟨rising_filter _ _ h.1, fun x hx => h.2 x (List.mem_filter.mp hx).1⟩

/-- Keeping only some entries keeps the canonical form. -/
theorem Memory.wf_filter (t : Tbl Byte) (p : Nat × Byte → Bool) (h : Memory.wf t = true) : Memory.wf (t.filter p) = true := by
  simp only [Memory.wf, Bool.and_eq_true, List.all_eq_true] at h ⊢
  exact ⟨rising_filter _ _ h.1, fun x hx => h.2 x (List.mem_filter.mp hx).1⟩

/-- Writing bytes keeps the canonical form. -/
theorem Memory.wf_memPut (b : Bytes) (t : Tbl Byte) (a : Nat) (h : Memory.wf t = true) : Memory.wf (memPut t a b) = true := by
  induction b generalizing t a with
  | nil => exact h
  | cons x r ih => exact ih _ _ (Memory.wf_tput t a x h)

/-- Writing bytes under a mask keeps the canonical form. -/
theorem Memory.wf_memPutMask (b : Bytes) (t : Tbl Byte) (a m : Nat) (h : Memory.wf t = true) :
    Memory.wf (memPutMask t a m b) = true := by
  induction b generalizing t a m with
  | nil => exact h
  | cons x r ih =>
    unfold memPutMask
    split
    · exact ih _ _ _ (Memory.wf_tput t a x h)
    · exact ih _ _ _ h

/-- Restoring a range keeps the canonical form. -/
theorem Memory.wf_memRestore (s t : Tbl Byte) (a n : Nat) (h : Memory.wf t = true) : Memory.wf (memRestore t a n s) = true := by
  unfold memRestore
  have h0 := Memory.wf_memClear t a n h
  generalize memClear t a n = u at h0
  induction s generalizing u with
  | nil => exact h0
  | cons x r ih =>
    obtain ⟨k, v⟩ := x
    simp only [List.foldl_cons]
    split
    · exact ih _ (Memory.wf_tput u (a + k) v h0)
    · exact ih _ h0

/-- The poison marker keeps the canonical form of the store. -/
theorem Dev.mark_wf (d : Dev) (line : Nat) (h : Memory.wf d.mem = true) : Memory.wf (d.mark line).mem = true := by
  unfold Dev.mark
  dsimp only
  generalize List.replicate 64 (0 : Byte) = b
  exact Memory.wf_memPut b _ _ h

/-- A write of a line keeps the canonical form of the store. -/
theorem Dev.putLine_wf (d : Dev) (line mask : Nat) (data : Bytes) (h : Memory.wf d.mem = true) :
    Memory.wf (d.putLine line mask data).mem = true := by
  have hm : (d.putLine line mask data).mem = memPutMask d.mem (line * 64) mask (takeBytes 64 data) := rfl
  rw [hm]
  exact Memory.wf_memPutMask _ _ _ _ h

/-- Nothing is listed at reset. -/
theorem State.reset_memWf : State.reset.memWf = true := rfl

/-- A byte reads what was written to it. -/
theorem memPut_one_same (t : Tbl Byte) (a : Nat) (x : Byte) : (tget (memPut t a [x]) a).getD 0 = x :=
  getD_tput_same 0 x t a

/-- Bytes outside a write keep their value. -/
theorem memPut_other (b : Bytes) (t : Tbl Byte) (a k : Nat) (h : k < a ∨ a + b.length ≤ k) :
    tget (memPut t a b) k = tget t k := by
  induction b generalizing t a with
  | nil => rfl
  | cons x r ih =>
    have hk : k ≠ a := by
      simp only [List.length_cons] at h
      omega
    have hr : k < a + 1 ∨ a + 1 + r.length ≤ k := by
      simp only [List.length_cons] at h
      omega
    exact (ih _ _ hr).trans (tget_tput_ne 0 x t a k hk)

/-- The byte at a place inside a write is the byte written. -/
theorem memPut_at (b : Bytes) (t : Tbl Byte) (a i : Nat) (h : i < b.length) :
    (tget (memPut t a b) (a + i)).getD 0 = b[i] := by
  induction b generalizing t a i with
  | nil => simp at h
  | cons x r ih =>
    cases i with
    | zero =>
      have h0 : tget (memPut (tput 0 t a x) (a + 1) r) a = tget (tput 0 t a x) a :=
        memPut_other r _ _ _ (.inl (Nat.lt_succ_self a))
      simp only [Nat.add_zero, memPut, h0, getD_tput_same, List.getElem_cons_zero]
    | succ i =>
      have := ih (tput 0 t a x) (a + 1) i (by simpa using h)
      simpa only [memPut, Nat.add_assoc, Nat.add_comm 1 i, List.getElem_cons_succ] using this

end Sys2Proof.Machine
end

