-- ==== Sys2Proof/Laws/State.lean ====
section
/-! SUPPORT. What a write of a register field, a thing shown and the form of a meaning leave as it was: one lemma for each
field of the state, so that no proof unfolds a record update. -/
namespace Sys2Proof.Machine

/-! ### A register field is written -/

@[simp] theorem Dev.wr_mem (d : Dev) (f : Fld) (i v : Nat) : (d.wr f i v).mem = d.mem := rfl
@[simp] theorem Dev.wr_poison (d : Dev) (f : Fld) (i v : Nat) : (d.wr f i v).poison = d.poison := rfl
@[simp] theorem Dev.wr_dir (d : Dev) (f : Fld) (i v : Nat) : (d.wr f i v).dir = d.dir := rfl
@[simp] theorem Dev.wr_born (d : Dev) (f : Fld) (i v : Nat) : (d.wr f i v).born = d.born := rfl
@[simp] theorem Dev.wr_trackers (d : Dev) (f : Fld) (i v : Nat) : (d.wr f i v).trackers = d.trackers := rfl
@[simp] theorem Dev.wr_conflict (d : Dev) (f : Fld) (i v : Nat) : (d.wr f i v).conflict = d.conflict := rfl
@[simp] theorem Dev.wr_victims (d : Dev) (f : Fld) (i v : Nat) : (d.wr f i v).victims = d.victims := rfl
@[simp] theorem Dev.wr_abuf (d : Dev) (f : Fld) (i v : Nat) : (d.wr f i v).abuf = d.abuf := rfl
@[simp] theorem Dev.wr_failed (d : Dev) (f : Fld) (i v : Nat) : (d.wr f i v).failed = d.failed := rfl
@[simp] theorem Dev.wr_leaks (d : Dev) (f : Fld) (i v : Nat) : (d.wr f i v).leaks = d.leaks := rfl
@[simp] theorem Dev.wr_fmap (d : Dev) (f : Fld) (i v : Nat) : (d.wr f i v).fmap = d.fmap := rfl
@[simp] theorem Dev.wr_pins (d : Dev) (f : Fld) (i v : Nat) : (d.wr f i v).pins = d.pins := rfl
@[simp] theorem Dev.wr_flash (d : Dev) (f : Fld) (i v : Nat) : (d.wr f i v).flash = d.flash := rfl
@[simp] theorem Dev.wr_progs (d : Dev) (f : Fld) (i v : Nat) : (d.wr f i v).progs = d.progs := rfl
@[simp] theorem Dev.wr_bmCache (d : Dev) (f : Fld) (i v : Nat) : (d.wr f i v).bmCache = d.bmCache := rfl
@[simp] theorem Dev.wr_budFrac (d : Dev) (f : Fld) (i v : Nat) : (d.wr f i v).budFrac = d.budFrac := rfl
@[simp] theorem Dev.wr_lc (d : Dev) (f : Fld) (i v : Nat) : (d.wr f i v).lc = d.lc := rfl
@[simp] theorem Dev.wr_fills (d : Dev) (f : Fld) (i v : Nat) : (d.wr f i v).fills = d.fills := rfl
@[simp] theorem Dev.wr_slotNext (d : Dev) (f : Fld) (i v : Nat) : (d.wr f i v).slotNext = d.slotNext := rfl
@[simp] theorem Dev.wr_stale (d : Dev) (f : Fld) (i v : Nat) : (d.wr f i v).stale = d.stale := rfl
@[simp] theorem Dev.wr_erased (d : Dev) (f : Fld) (i v : Nat) : (d.wr f i v).erased = d.erased := rfl
@[simp] theorem Dev.wr_wseq (d : Dev) (f : Fld) (i v : Nat) : (d.wr f i v).wseq = d.wseq := rfl
@[simp] theorem Dev.wr_erases (d : Dev) (f : Fld) (i v : Nat) : (d.wr f i v).erases = d.erases := rfl
@[simp] theorem Dev.wr_tens (d : Dev) (f : Fld) (i v : Nat) : (d.wr f i v).tens = d.tens := rfl
@[simp] theorem Dev.wr_retired (d : Dev) (f : Fld) (i v : Nat) : (d.wr f i v).retired = d.retired := rfl
@[simp] theorem Dev.wr_undo (d : Dev) (f : Fld) (i v : Nat) : (d.wr f i v).undo = d.undo := rfl
@[simp] theorem Dev.wr_hold (d : Dev) (f : Fld) (i v : Nat) : (d.wr f i v).hold = d.hold := rfl
@[simp] theorem Dev.wr_held (d : Dev) (f : Fld) (i v : Nat) : (d.wr f i v).held = d.held := rfl
@[simp] theorem Dev.wr_answers (d : Dev) (f : Fld) (i v : Nat) : (d.wr f i v).answers = d.answers := rfl
@[simp] theorem Dev.wr_portHeld (d : Dev) (f : Fld) (i v : Nat) : (d.wr f i v).portHeld = d.portHeld := rfl
@[simp] theorem Dev.wr_bootFlash (d : Dev) (f : Fld) (i v : Nat) : (d.wr f i v).bootFlash = d.bootFlash := rfl
@[simp] theorem Dev.wr_jobs (d : Dev) (f : Fld) (i v : Nat) : (d.wr f i v).jobs = d.jobs := rfl
@[simp] theorem Dev.wr_tdb (d : Dev) (f : Fld) (i v : Nat) : (d.wr f i v).tdb = d.tdb := rfl
@[simp] theorem Dev.wr_irqP (d : Dev) (f : Fld) (i v : Nat) : (d.wr f i v).irqP = d.irqP := rfl
@[simp] theorem Dev.wr_irqT (d : Dev) (f : Fld) (i v : Nat) : (d.wr f i v).irqT = d.irqT := rfl
@[simp] theorem Dev.wr_lastCpl (d : Dev) (f : Fld) (i v : Nat) : (d.wr f i v).lastCpl = d.lastCpl := rfl
@[simp] theorem Dev.wr_cplLost (d : Dev) (f : Fld) (i v : Nat) : (d.wr f i v).cplLost = d.cplLost := rfl
@[simp] theorem Dev.wr_deficit (d : Dev) (f : Fld) (i v : Nat) : (d.wr f i v).deficit = d.deficit := rfl
@[simp] theorem Dev.wr_visited (d : Dev) (f : Fld) (i v : Nat) : (d.wr f i v).visited = d.visited := rfl
@[simp] theorem Dev.wr_msix (d : Dev) (f : Fld) (i v : Nat) : (d.wr f i v).msix = d.msix := rfl
@[simp] theorem Dev.wr_pba (d : Dev) (f : Fld) (i v : Nat) : (d.wr f i v).pba = d.pba := rfl
@[simp] theorem Dev.wr_msixCtl (d : Dev) (f : Fld) (i v : Nat) : (d.wr f i v).msixCtl = d.msixCtl := rfl
@[simp] theorem Dev.wr_hostDisc (d : Dev) (f : Fld) (i v : Nat) : (d.wr f i v).hostDisc = d.hostDisc := rfl
@[simp] theorem Dev.wr_redir (d : Dev) (f : Fld) (i v : Nat) : (d.wr f i v).redir = d.redir := rfl
@[simp] theorem Dev.wr_redirFlash (d : Dev) (f : Fld) (i v : Nat) : (d.wr f i v).redirFlash = d.redirFlash := rfl
@[simp] theorem Dev.wr_bayTlb (d : Dev) (f : Fld) (i v : Nat) : (d.wr f i v).bayTlb = d.bayTlb := rfl
@[simp] theorem Dev.wr_shrTlb (d : Dev) (f : Fld) (i v : Nat) : (d.wr f i v).shrTlb = d.shrTlb := rfl
@[simp] theorem Dev.wr_walks (d : Dev) (f : Fld) (i v : Nat) : (d.wr f i v).walks = d.walks := rfl
@[simp] theorem Dev.wr_walkTurn (d : Dev) (f : Fld) (i v : Nat) : (d.wr f i v).walkTurn = d.walkTurn := rfl
@[simp] theorem Dev.wr_inval (d : Dev) (f : Fld) (i v : Nat) : (d.wr f i v).inval = d.inval := rfl
@[simp] theorem Dev.wr_closing (d : Dev) (f : Fld) (i v : Nat) : (d.wr f i v).closing = d.closing := rfl
@[simp] theorem Dev.wr_steps (d : Dev) (f : Fld) (i v : Nat) : (d.wr f i v).steps = d.steps := rfl
@[simp] theorem Dev.wr_slots (d : Dev) (f : Fld) (i v : Nat) : (d.wr f i v).slots = d.slots := rfl
@[simp] theorem Dev.wr_threads (d : Dev) (f : Fld) (i v : Nat) : (d.wr f i v).threads = d.threads := rfl
@[simp] theorem Dev.wr_vregs (d : Dev) (f : Fld) (i v : Nat) : (d.wr f i v).vregs = d.vregs := rfl
@[simp] theorem Dev.wr_scratch (d : Dev) (f : Fld) (i v : Nat) : (d.wr f i v).scratch = d.scratch := rfl
@[simp] theorem Dev.wr_pwin (d : Dev) (f : Fld) (i v : Nat) : (d.wr f i v).pwin = d.pwin := rfl
@[simp] theorem Dev.wr_trace (d : Dev) (f : Fld) (i v : Nat) : (d.wr f i v).trace = d.trace := rfl
@[simp] theorem Dev.wr_reqs (d : Dev) (f : Fld) (i v : Nat) : (d.wr f i v).reqs = d.reqs := rfl
@[simp] theorem Dev.wr_deadTags (d : Dev) (f : Fld) (i v : Nat) : (d.wr f i v).deadTags = d.deadTags := rfl
@[simp] theorem Dev.wr_fresh (d : Dev) (f : Fld) (i v : Nat) : (d.wr f i v).fresh = d.fresh := rfl
@[simp] theorem Dev.wr_epochFirst (d : Dev) (f : Fld) (i v : Nat) : (d.wr f i v).epochFirst = d.epochFirst := rfl
@[simp] theorem Dev.wr_scrOwner (d : Dev) (f : Fld) (i v : Nat) : (d.wr f i v).scrOwner = d.scrOwner := rfl
@[simp] theorem Dev.wr_seq (d : Dev) (f : Fld) (i v : Nat) : (d.wr f i v).seq = d.seq := rfl
@[simp] theorem Dev.wr_comb (d : Dev) (f : Fld) (i v : Nat) : (d.wr f i v).comb = d.comb := rfl
@[simp] theorem Dev.wr_sketch (d : Dev) (f : Fld) (i v : Nat) : (d.wr f i v).sketch = d.sketch := rfl
@[simp] theorem Dev.wr_pq (d : Dev) (f : Fld) (i v : Nat) : (d.wr f i v).pq = d.pq := rfl
@[simp] theorem Dev.wr_coal (d : Dev) (f : Fld) (i v : Nat) : (d.wr f i v).coal = d.coal := rfl
@[simp] theorem Dev.wr_heelHold (d : Dev) (f : Fld) (i v : Nat) : (d.wr f i v).heelHold = d.heelHold := rfl
@[simp] theorem Dev.wr_running (d : Dev) (f : Fld) (i v : Nat) : (d.wr f i v).running = d.running := rfl
@[simp] theorem Dev.wr_wanted (d : Dev) (f : Fld) (i v : Nat) : (d.wr f i v).wanted = d.wanted := rfl
@[simp] theorem Dev.wr_map (d : Dev) (f : Fld) (i v : Nat) : (d.wr f i v).map = d.map := rfl
@[simp] theorem Dev.wr_nextMap (d : Dev) (f : Fld) (i v : Nat) : (d.wr f i v).nextMap = d.nextMap := rfl
@[simp] theorem Dev.wr_handing (d : Dev) (f : Fld) (i v : Nat) : (d.wr f i v).handing = d.handing := rfl
@[simp] theorem Dev.wr_gens (d : Dev) (f : Fld) (i v : Nat) : (d.wr f i v).gens = d.gens := rfl
@[simp] theorem Dev.wr_heelAsked (d : Dev) (f : Fld) (i v : Nat) : (d.wr f i v).heelAsked = d.heelAsked := rfl
@[simp] theorem Dev.wr_forcedFor (d : Dev) (f : Fld) (i v : Nat) : (d.wr f i v).forcedFor = d.forcedFor := rfl
@[simp] theorem Dev.wr_lasting (d : Dev) (f : Fld) (i v : Nat) : (d.wr f i v).lasting = d.lasting := rfl
@[simp] theorem Dev.wr_lastStruct (d : Dev) (f : Fld) (i v : Nat) : (d.wr f i v).lastStruct = d.lastStruct := rfl
@[simp] theorem Dev.wr_resetTimes (d : Dev) (f : Fld) (i v : Nat) : (d.wr f i v).resetTimes = d.resetTimes := rfl
@[simp] theorem Dev.wr_lostFor (d : Dev) (f : Fld) (i v : Nat) : (d.wr f i v).lostFor = d.lostFor := rfl
@[simp] theorem Dev.wr_omitted (d : Dev) (f : Fld) (i v : Nat) : (d.wr f i v).omitted = d.omitted := rfl
@[simp] theorem Dev.wr_heelStep (d : Dev) (f : Fld) (i v : Nat) : (d.wr f i v).heelStep = d.heelStep := rfl
@[simp] theorem Dev.wr_shipE (d : Dev) (f : Fld) (i v : Nat) : (d.wr f i v).shipE = d.shipE := rfl
@[simp] theorem Dev.wr_epochPrev (d : Dev) (f : Fld) (i v : Nat) : (d.wr f i v).epochPrev = d.epochPrev := rfl
@[simp] theorem Dev.wr_heelLead (d : Dev) (f : Fld) (i v : Nat) : (d.wr f i v).heelLead = d.heelLead := rfl
@[simp] theorem Dev.wr_rollLead (d : Dev) (f : Fld) (i v : Nat) : (d.wr f i v).rollLead = d.rollLead := rfl
@[simp] theorem Dev.wr_lostEpoch (d : Dev) (f : Fld) (i v : Nat) : (d.wr f i v).lostEpoch = d.lostEpoch := rfl
@[simp] theorem Dev.wr_replayIdx (d : Dev) (f : Fld) (i v : Nat) : (d.wr f i v).replayIdx = d.replayIdx := rfl
@[simp] theorem Dev.wr_epochSeen (d : Dev) (f : Fld) (i v : Nat) : (d.wr f i v).epochSeen = d.epochSeen := rfl
@[simp] theorem Dev.wr_grpNodes (d : Dev) (f : Fld) (i v : Nat) : (d.wr f i v).grpNodes = d.grpNodes := rfl
@[simp] theorem Dev.wr_groupDue (d : Dev) (f : Fld) (i v : Nat) : (d.wr f i v).groupDue = d.groupDue := rfl
@[simp] theorem Dev.wr_synced (d : Dev) (f : Fld) (i v : Nat) : (d.wr f i v).synced = d.synced := rfl
@[simp] theorem Dev.wr_beats (d : Dev) (f : Fld) (i v : Nat) : (d.wr f i v).beats = d.beats := rfl
@[simp] theorem Dev.wr_missed (d : Dev) (f : Fld) (i v : Nat) : (d.wr f i v).missed = d.missed := rfl
@[simp] theorem Dev.wr_beatAt (d : Dev) (f : Fld) (i v : Nat) : (d.wr f i v).beatAt = d.beatAt := rfl
@[simp] theorem Dev.wr_rebMine (d : Dev) (f : Fld) (i v : Nat) : (d.wr f i v).rebMine = d.rebMine := rfl
@[simp] theorem Dev.wr_rebPages (d : Dev) (f : Fld) (i v : Nat) : (d.wr f i v).rebPages = d.rebPages := rfl
@[simp] theorem Dev.wr_rebGot (d : Dev) (f : Fld) (i v : Nat) : (d.wr f i v).rebGot = d.rebGot := rfl
@[simp] theorem Dev.wr_rebOut (d : Dev) (f : Fld) (i v : Nat) : (d.wr f i v).rebOut = d.rebOut := rfl
@[simp] theorem Dev.wr_rebKept (d : Dev) (f : Fld) (i v : Nat) : (d.wr f i v).rebKept = d.rebKept := rfl
@[simp] theorem Dev.wr_kp (d : Dev) (f : Fld) (i v : Nat) : (d.wr f i v).kp = d.kp := rfl
@[simp] theorem Dev.wr_revAt (d : Dev) (f : Fld) (i v : Nat) : (d.wr f i v).revAt = d.revAt := rfl
@[simp] theorem Dev.wr_rstStep (d : Dev) (f : Fld) (i v : Nat) : (d.wr f i v).rstStep = d.rstStep := rfl
@[simp] theorem Dev.wr_rstAt (d : Dev) (f : Fld) (i v : Nat) : (d.wr f i v).rstAt = d.rstAt := rfl
@[simp] theorem Dev.wr_fence (d : Dev) (f : Fld) (i v : Nat) : (d.wr f i v).fence = d.fence := rfl
@[simp] theorem Dev.wr_swQ (d : Dev) (f : Fld) (i v : Nat) : (d.wr f i v).swQ = d.swQ := rfl
@[simp] theorem Dev.wr_offStep (d : Dev) (f : Fld) (i v : Nat) : (d.wr f i v).offStep = d.offStep := rfl
@[simp] theorem Dev.wr_offAt (d : Dev) (f : Fld) (i v : Nat) : (d.wr f i v).offAt = d.offAt := rfl
@[simp] theorem Dev.wr_save (d : Dev) (f : Fld) (i v : Nat) : (d.wr f i v).save = d.save := rfl
@[simp] theorem Dev.wr_stored (d : Dev) (f : Fld) (i v : Nat) : (d.wr f i v).stored = d.stored := rfl
@[simp] theorem Dev.wr_storedKnl (d : Dev) (f : Fld) (i v : Nat) : (d.wr f i v).storedKnl = d.storedKnl := rfl
@[simp] theorem Dev.wr_vfEnable (d : Dev) (f : Fld) (i v : Nat) : (d.wr f i v).vfEnable = d.vfEnable := rfl
@[simp] theorem Dev.wr_sideQ (d : Dev) (f : Fld) (i v : Nat) : (d.wr f i v).sideQ = d.sideQ := rfl
@[simp] theorem Dev.wr_sideLost (d : Dev) (f : Fld) (i v : Nat) : (d.wr f i v).sideLost = d.sideLost := rfl
@[simp] theorem Dev.wr_alerts (d : Dev) (f : Fld) (i v : Nat) : (d.wr f i v).alerts = d.alerts := rfl
@[simp] theorem Dev.wr_lnk (d : Dev) (f : Fld) (i v : Nat) : (d.wr f i v).lnk = d.lnk := rfl
@[simp] theorem Dev.wr_cxlMode (d : Dev) (f : Fld) (i v : Nat) : (d.wr f i v).cxlMode = d.cxlMode := rfl
@[simp] theorem Dev.wr_biEnable (d : Dev) (f : Fld) (i v : Nat) : (d.wr f i v).biEnable = d.biEnable := rfl
@[simp] theorem Dev.wr_hdm (d : Dev) (f : Fld) (i v : Nat) : (d.wr f i v).hdm = d.hdm := rfl
@[simp] theorem Dev.wr_hdmErr (d : Dev) (f : Fld) (i v : Nat) : (d.wr f i v).hdmErr = d.hdmErr := rfl
@[simp] theorem Dev.wr_perst (d : Dev) (f : Fld) (i v : Nat) : (d.wr f i v).perst = d.perst := rfl
@[simp] theorem Dev.wr_extents (d : Dev) (f : Fld) (i v : Nat) : (d.wr f i v).extents = d.extents := rfl
@[simp] theorem Dev.wr_extGen (d : Dev) (f : Fld) (i v : Nat) : (d.wr f i v).extGen = d.extGen := rfl
@[simp] theorem Dev.wr_dcLog (d : Dev) (f : Fld) (i v : Nat) : (d.wr f i v).dcLog = d.dcLog := rfl
@[simp] theorem Dev.wr_dcNext (d : Dev) (f : Fld) (i v : Nat) : (d.wr f i v).dcNext = d.dcNext := rfl
@[simp] theorem Dev.wr_dcOvf (d : Dev) (f : Fld) (i v : Nat) : (d.wr f i v).dcOvf = d.dcOvf := rfl
@[simp] theorem Dev.wr_evPolicy (d : Dev) (f : Fld) (i v : Nat) : (d.wr f i v).evPolicy = d.evPolicy := rfl
@[simp] theorem Dev.wr_cxlTime (d : Dev) (f : Fld) (i v : Nat) : (d.wr f i v).cxlTime = d.cxlTime := rfl
@[simp] theorem Dev.wr_tdiStop (d : Dev) (f : Fld) (i v : Nat) : (d.wr f i v).tdiStop = d.tdiStop := rfl
@[simp] theorem Dev.wr_ideKeys (d : Dev) (f : Fld) (i v : Nat) : (d.wr f i v).ideKeys = d.ideKeys := rfl
@[simp] theorem Dev.wr_ideGo (d : Dev) (f : Fld) (i v : Nat) : (d.wr f i v).ideGo = d.ideGo := rfl
@[simp] theorem Dev.wr_cables (d : Dev) (f : Fld) (i v : Nat) : (d.wr f i v).cables = d.cables := rfl
@[simp] theorem Dev.wr_made (d : Dev) (f : Fld) (i v : Nat) : (d.wr f i v).made = d.made := rfl
@[simp] theorem Dev.wr_nvActive (d : Dev) (f : Fld) (i v : Nat) : (d.wr f i v).nvActive = d.nvActive := rfl
@[simp] theorem Dev.wr_nvPending (d : Dev) (f : Fld) (i v : Nat) : (d.wr f i v).nvPending = d.nvPending := rfl
@[simp] theorem Dev.wr_nvOk (d : Dev) (f : Fld) (i v : Nat) : (d.wr f i v).nvOk = d.nvOk := rfl
@[simp] theorem Dev.wr_rtp (d : Dev) (f : Fld) (i v : Nat) : (d.wr f i v).rtp = d.rtp := rfl
@[simp] theorem Dev.wr_runSlot (d : Dev) (f : Fld) (i v : Nat) : (d.wr f i v).runSlot = d.runSlot := rfl
@[simp] theorem Dev.wr_meas (d : Dev) (f : Fld) (i v : Nat) : (d.wr f i v).meas = d.meas := rfl
@[simp] theorem Dev.wr_certs (d : Dev) (f : Fld) (i v : Nat) : (d.wr f i v).certs = d.certs := rfl
@[simp] theorem Dev.wr_alias_ (d : Dev) (f : Fld) (i v : Nat) : (d.wr f i v).alias_ = d.alias_ := rfl
@[simp] theorem Dev.wr_claim (d : Dev) (f : Fld) (i v : Nat) : (d.wr f i v).claim = d.claim := rfl
@[simp] theorem Dev.wr_spdmConn (d : Dev) (f : Fld) (i v : Nat) : (d.wr f i v).spdmConn = d.spdmConn := rfl
@[simp] theorem Dev.wr_sessions (d : Dev) (f : Fld) (i v : Nat) : (d.wr f i v).sessions = d.sessions := rfl
@[simp] theorem Dev.wr_sessNext (d : Dev) (f : Fld) (i v : Nat) : (d.wr f i v).sessNext = d.sessNext := rfl
@[simp] theorem Dev.wr_dbgNonce (d : Dev) (f : Fld) (i v : Nat) : (d.wr f i v).dbgNonce = d.dbgNonce := rfl
@[simp] theorem Dev.wr_tdiNonce (d : Dev) (f : Fld) (i v : Nat) : (d.wr f i v).tdiNonce = d.tdiNonce := rfl
@[simp] theorem Dev.wr_upStep (d : Dev) (f : Fld) (i v : Nat) : (d.wr f i v).upStep = d.upStep := rfl
@[simp] theorem Dev.wr_upAt (d : Dev) (f : Fld) (i v : Nat) : (d.wr f i v).upAt = d.upAt := rfl
@[simp] theorem Dev.wr_pwrgd (d : Dev) (f : Fld) (i v : Nat) : (d.wr f i v).pwrgd = d.pwrgd := rfl
@[simp] theorem Dev.wr_tripped (d : Dev) (f : Fld) (i v : Nat) : (d.wr f i v).tripped = d.tripped := rfl
@[simp] theorem Dev.wr_inputs (d : Dev) (f : Fld) (i v : Nat) : (d.wr f i v).inputs = d.inputs := rfl
@[simp] theorem Dev.wr_energyRem (d : Dev) (f : Fld) (i v : Nat) : (d.wr f i v).energyRem = d.energyRem := rfl
@[simp] theorem Dev.wr_lowMargins (d : Dev) (f : Fld) (i v : Nat) : (d.wr f i v).lowMargins = d.lowMargins := rfl
@[simp] theorem Dev.wr_i3cAddr (d : Dev) (f : Fld) (i v : Nat) : (d.wr f i v).i3cAddr = d.i3cAddr := rfl
@[simp] theorem Dev.wr_eid (d : Dev) (f : Fld) (i v : Nat) : (d.wr f i v).eid = d.eid := rfl
@[simp] theorem Dev.wr_tid (d : Dev) (f : Fld) (i v : Nat) : (d.wr f i v).tid = d.tid := rfl
@[simp] theorem Dev.wr_pldm (d : Dev) (f : Fld) (i v : Nat) : (d.wr f i v).pldm = d.pldm := rfl
@[simp] theorem Dev.wr_numVfs (d : Dev) (f : Fld) (i v : Nat) : (d.wr f i v).numVfs = d.numVfs := rfl
@[simp] theorem Dev.wr_out (d : Dev) (f : Fld) (i v : Nat) : (d.wr f i v).out = d.out := rfl

/-! ### A meaning runs -/

@[simp] theorem State.run_eq (s : State) (f : Cx → Dev → Dev) : s.run f = .next (s.withDev (f s.cx s.dev)) := rfl
@[simp] theorem State.withDev_dev (s : State) (d : Dev) : (s.withDev d).dev = d := rfl
@[simp] theorem State.withDev_variant (s : State) (d : Dev) : (s.withDev d).variant = s.variant := rfl
@[simp] theorem State.withDev_lock (s : State) (d : Dev) : (s.withDev d).lock = s.lock := rfl
@[simp] theorem State.withDev_tmr (s : State) (d : Dev) : (s.withDev d).tmr = s.tmr := rfl
@[simp] theorem State.withDev_withDev (s : State) (a b : Dev) : (s.withDev a).withDev b = s.withDev b := rfl
@[simp] theorem State.shows_dev (s : State) (o : Out) : (s.shows o).dev = { s.dev with out := s.dev.out ++ [o] } := rfl
@[simp] theorem State.withDev_pending (s : State) (d : Dev) : (s.withDev d).pending = s.pending := rfl
@[simp] theorem State.cx_v (s : State) : s.cx.variant = s.variant := rfl
@[simp] theorem State.cx_lock (s : State) : s.cx.lock = s.lock := rfl
@[simp] theorem State.cx_tmr (s : State) : s.cx.tmr = s.tmr := rfl

/-! ### Something is shown -/

@[simp] theorem Dev.emit_value (d : Dev) (v : Nat) : d.emit (.value v) = { d with out := d.out ++ [.value v] } := rfl
@[simp] theorem Dev.emit_sideband (d : Dev) (c : Nat) (p : List Nat) : d.emit (.sideband c p) = { d with out := d.out ++ [.sideband c p] } := rfl
@[simp] theorem Dev.emit_mailbox (d : Dev) (c : Nat) (p : List Nat) : d.emit (.mailbox c p) = { d with out := d.out ++ [.mailbox c p] } := rfl
@[simp] theorem Dev.emit_spdm (d : Dev) (c : Nat) (p : List Nat) : d.emit (.spdm c p) = { d with out := d.out ++ [.spdm c p] } := rfl
@[simp] theorem Dev.emit_pldmReq (d : Dev) (c : Nat) (p : List Nat) : d.emit (.pldmReq c p) = { d with out := d.out ++ [.pldmReq c p] } := rfl
@[simp] theorem Dev.emit_keep (d : Dev) (n : Nat) (m : KeepMsg) : d.emit (.keep n m) = { d with out := d.out ++ [.keep n m] } := rfl
@[simp] theorem Dev.emit_hostWrite (d : Dev) (f a : Nat) (w : List Nat) (t : Bool) : d.emit (.hostWrite f a w t) = { d with out := d.out ++ [.hostWrite f a w t] } := rfl
@[simp] theorem Dev.emit_msix (d : Dev) (f v a x : Nat) (t : Bool) : d.emit (.msix f v a x t) = { d with out := d.out ++ [.msix f v a x t] } := rfl
@[simp] theorem Dev.emit_cxlCmp (d : Dev) (h t g l : Nat) : d.emit (.cxlCmp h t g l) = { d with out := d.out ++ [.cxlCmp h t g l] } := rfl
@[simp] theorem Dev.emit_cxlData (d : Dev) (h t g l : Nat) (p : Bool) (b : Bytes) : d.emit (.cxlData h t g l p b) = { d with out := d.out ++ [.cxlData h t g l p b] } := rfl
@[simp] theorem Dev.emit_biSnp (d : Dev) (h l : Nat) (i : Bool) : d.emit (.biSnp h l i) = { d with out := d.out ++ [.biSnp h l i] } := rfl
@[simp] theorem Dev.emit_biConflictAck (d : Dev) (h l : Nat) : d.emit (.biConflictAck h l) = { d with out := d.out ++ [.biConflictAck h l] } := rfl
@[simp] theorem Dev.emit_cdat (d : Dev) (e : List (List Nat)) : d.emit (.cdat e) = { d with out := d.out ++ [.cdat e] } := rfl
@[simp] theorem Dev.emit_linkctl (d : Dev) (l k : Nat) (w : List Nat) : d.emit (.linkctl l k w) = { d with out := d.out ++ [.linkctl l k w] } := rfl
@[simp] theorem Dev.emit_flit (d : Dev) (l : Nat) (f : TxFlit) (a v c : Nat) : d.emit (.flit l f a v c) = { d with out := d.out ++ [.flit l f a v c] } := rfl

end Sys2Proof.Machine
end

