-- ==== Sys2Proof/Laws/Shared.lean ====
section
/-! SUPPORT. What each shared operation can change, said once: the parts of the block it leaves as they were, and what it
writes. The parts are the store (`toStoreSt`), the work (`toWorkSt`), the group (`toGroupSt`), the system (`toSysSt`), the
registers and what was shown. -/
namespace Sys2Proof.Machine

/-- A fold whose steps keep something keeps it. -/
theorem foldl_keeps {α β γ : Type} (g : α → γ) (f : α → β → α) (h : ∀ a b, g (f a b) = g a) (l : List β) (a : α) :
    g (l.foldl f a) = g a := by
  induction l generalizing a with
  | nil => rfl
  | cons x r ih => exact (ih _).trans (h a x)

/-! ### Register fields -/

@[simp] theorem Dev.wr_store (d : Dev) (f : Fld) (i v : Nat) : (d.wr f i v).toStoreSt = d.toStoreSt := rfl
@[simp] theorem Dev.wr_work (d : Dev) (f : Fld) (i v : Nat) : (d.wr f i v).toWorkSt = d.toWorkSt := rfl
@[simp] theorem Dev.wr_group (d : Dev) (f : Fld) (i v : Nat) : (d.wr f i v).toGroupSt = d.toGroupSt := rfl
@[simp] theorem Dev.wr_sys (d : Dev) (f : Fld) (i v : Nat) : (d.wr f i v).toSysSt = d.toSysSt := rfl
@[simp] theorem Dev.inc_store (d : Dev) (f : Fld) (i n : Nat) : (d.inc f i n).toStoreSt = d.toStoreSt := rfl
@[simp] theorem Dev.inc_work (d : Dev) (f : Fld) (i n : Nat) : (d.inc f i n).toWorkSt = d.toWorkSt := rfl
@[simp] theorem Dev.inc_group (d : Dev) (f : Fld) (i n : Nat) : (d.inc f i n).toGroupSt = d.toGroupSt := rfl
@[simp] theorem Dev.inc_sys (d : Dev) (f : Fld) (i n : Nat) : (d.inc f i n).toSysSt = d.toSysSt := rfl
@[simp] theorem Dev.inc_shown (d : Dev) (f : Fld) (i n : Nat) : (d.inc f i n).out = d.out := rfl
@[simp] theorem Dev.bump_store (d : Dev) (f : Fld) (i n : Nat) : (d.bump f i n).toStoreSt = d.toStoreSt := rfl
@[simp] theorem Dev.bump_work (d : Dev) (f : Fld) (i n : Nat) : (d.bump f i n).toWorkSt = d.toWorkSt := rfl
@[simp] theorem Dev.bump_group (d : Dev) (f : Fld) (i n : Nat) : (d.bump f i n).toGroupSt = d.toGroupSt := rfl
@[simp] theorem Dev.bump_sys (d : Dev) (f : Fld) (i n : Nat) : (d.bump f i n).toSysSt = d.toSysSt := rfl
@[simp] theorem Dev.bump_shown (d : Dev) (f : Fld) (i n : Nat) : (d.bump f i n).out = d.out := rfl
@[simp] theorem Dev.dec_store (d : Dev) (f : Fld) (i n : Nat) : (d.dec f i n).toStoreSt = d.toStoreSt := rfl
@[simp] theorem Dev.dec_work (d : Dev) (f : Fld) (i n : Nat) : (d.dec f i n).toWorkSt = d.toWorkSt := rfl
@[simp] theorem Dev.dec_group (d : Dev) (f : Fld) (i n : Nat) : (d.dec f i n).toGroupSt = d.toGroupSt := rfl
@[simp] theorem Dev.dec_sys (d : Dev) (f : Fld) (i n : Nat) : (d.dec f i n).toSysSt = d.toSysSt := rfl
@[simp] theorem Dev.dec_shown (d : Dev) (f : Fld) (i n : Nat) : (d.dec f i n).out = d.out := rfl
@[simp] theorem Dev.setBit_store (d : Dev) (f : Fld) (i b : Nat) (on : Bool) : (d.setBit f i b on).toStoreSt = d.toStoreSt := rfl
@[simp] theorem Dev.setBit_work (d : Dev) (f : Fld) (i b : Nat) (on : Bool) : (d.setBit f i b on).toWorkSt = d.toWorkSt := rfl
@[simp] theorem Dev.setBit_group (d : Dev) (f : Fld) (i b : Nat) (on : Bool) : (d.setBit f i b on).toGroupSt = d.toGroupSt := rfl
@[simp] theorem Dev.setBit_sys (d : Dev) (f : Fld) (i b : Nat) (on : Bool) : (d.setBit f i b on).toSysSt = d.toSysSt := rfl
@[simp] theorem Dev.setBit_shown (d : Dev) (f : Fld) (i b : Nat) (on : Bool) : (d.setBit f i b on).out = d.out := rfl

/-- A counter that saturates holds the smaller of its sum and its greatest value. -/
theorem Dev.rd_inc_same (d : Dev) (f : Fld) (i n : Nat) : (d.inc f i n).rd f i = min (d.rd f i + n) (2 ^ f.w - 1) := by
  unfold Dev.inc
  rw [Dev.rd_wr_same]
  exact Nat.mod_eq_of_lt (Nat.lt_of_le_of_lt (Nat.min_le_right _ _) (by have := Nat.two_pow_pos f.w; omega))

/-- A count that wraps holds its sum modulo its width. -/
theorem Dev.rd_bump_same (d : Dev) (f : Fld) (i n : Nat) : (d.bump f i n).rd f i = (d.rd f i + n) % 2 ^ f.w :=
  Dev.rd_wr_same _ _ _ _

/-! ### Messages and what is shown -/

@[simp] theorem Dev.enqueue_store (d : Dev) (i : Nat) (m : Msg) : (d.enqueue i m).toStoreSt = d.toStoreSt := rfl
@[simp] theorem Dev.enqueue_work (d : Dev) (i : Nat) (m : Msg) : (d.enqueue i m).toWorkSt = d.toWorkSt := rfl
@[simp] theorem Dev.enqueue_group (d : Dev) (i : Nat) (m : Msg) : (d.enqueue i m).toGroupSt = d.toGroupSt := rfl
@[simp] theorem Dev.enqueue_regs (d : Dev) (i : Nat) (m : Msg) : (d.enqueue i m).regs = d.regs := rfl
@[simp] theorem Dev.enqueue_out (d : Dev) (i : Nat) (m : Msg) : (d.enqueue i m).out = d.out := rfl

/-- The switch keeps whatever the queueing of a message and a counter keep. -/
theorem Dev.switch_keeps {γ : Type} (g : Dev → γ) (he : ∀ d i m, g (Dev.enqueue d i m) = g d)
    (hi : ∀ d f i n, g (Dev.inc d f i n) = g d) (d : Dev) (m : Msg) : g (d.switch m) = g d := by
  unfold Dev.switch
  split
  · exact foldl_keeps g _ (fun a b => he a b m) _ d
  · split
    · rfl
    · split
      · exact he ..
      · exact hi ..

@[simp] theorem Dev.switch_store (d : Dev) (m : Msg) : (d.switch m).toStoreSt = d.toStoreSt :=
  Dev.switch_keeps Dev.toStoreSt (fun _ _ _ => rfl) (fun _ _ _ _ => rfl) d m
@[simp] theorem Dev.switch_work (d : Dev) (m : Msg) : (d.switch m).toWorkSt = d.toWorkSt :=
  Dev.switch_keeps Dev.toWorkSt (fun _ _ _ => rfl) (fun _ _ _ _ => rfl) d m
@[simp] theorem Dev.switch_group (d : Dev) (m : Msg) : (d.switch m).toGroupSt = d.toGroupSt :=
  Dev.switch_keeps Dev.toGroupSt (fun _ _ _ => rfl) (fun _ _ _ _ => rfl) d m
@[simp] theorem Dev.switch_out (d : Dev) (m : Msg) : (d.switch m).out = d.out :=
  Dev.switch_keeps Dev.out (fun _ _ _ => rfl) (fun _ _ _ _ => rfl) d m

@[simp] theorem Dev.emit_store (d : Dev) (o : Out) : (d.emit o).toStoreSt = d.toStoreSt := by
  unfold Dev.emit
  split
  · exact Dev.switch_store _ _
  · rfl
@[simp] theorem Dev.emit_work (d : Dev) (o : Out) : (d.emit o).toWorkSt = d.toWorkSt := by
  unfold Dev.emit
  split
  · exact Dev.switch_work _ _
  · rfl
@[simp] theorem Dev.emit_group (d : Dev) (o : Out) : (d.emit o).toGroupSt = d.toGroupSt := by
  unfold Dev.emit
  split
  · exact Dev.switch_group _ _
  · rfl
/-- Whatever is shown is the newest thing shown. -/
@[simp] theorem Dev.emit_shown (d : Dev) (o : Out) : (d.emit o).out = d.out ++ [o] := by
  unfold Dev.emit
  split
  · exact Dev.switch_out _ _
  · rfl

@[simp] theorem Dev.emits_store (d : Dev) (os : List Out) : (d.emits os).toStoreSt = d.toStoreSt :=
  foldl_keeps Dev.toStoreSt _ (fun a b => Dev.emit_store a b) os d
@[simp] theorem Dev.emits_work (d : Dev) (os : List Out) : (d.emits os).toWorkSt = d.toWorkSt :=
  foldl_keeps Dev.toWorkSt _ (fun a b => Dev.emit_work a b) os d
@[simp] theorem Dev.emits_group (d : Dev) (os : List Out) : (d.emits os).toGroupSt = d.toGroupSt :=
  foldl_keeps Dev.toGroupSt _ (fun a b => Dev.emit_group a b) os d
@[simp] theorem Dev.emits_shown (d : Dev) (os : List Out) : (d.emits os).out = d.out ++ os := by
  unfold Dev.emits
  induction os generalizing d with
  | nil => simp
  | cons o r ih => rw [List.foldl_cons, ih, Dev.emit_shown, List.append_assoc, List.singleton_append]

@[simp] theorem Dev.keep_store (d : Dev) (n : Nat) (m : KeepMsg) : (d.keep n m).toStoreSt = d.toStoreSt := by
  unfold Dev.keep
  split <;> rfl
@[simp] theorem Dev.keep_work (d : Dev) (n : Nat) (m : KeepMsg) : (d.keep n m).toWorkSt = d.toWorkSt := by
  unfold Dev.keep
  split <;> rfl
@[simp] theorem Dev.keep_group (d : Dev) (n : Nat) (m : KeepMsg) : (d.keep n m).toGroupSt = d.toGroupSt := by
  unfold Dev.keep
  split <;> rfl
@[simp] theorem Dev.keep_regs (d : Dev) (n : Nat) (m : KeepMsg) : (d.keep n m).regs = d.regs := by
  unfold Dev.keep
  split <;> rfl
@[simp] theorem Dev.propose_store (d : Dev) (c : Change) : (d.propose c).toStoreSt = d.toStoreSt := by
  unfold Dev.propose Dev.toLead
  split
  · exact Dev.keep_store _ _ _
  · rfl
@[simp] theorem Dev.propose_work (d : Dev) (c : Change) : (d.propose c).toWorkSt = d.toWorkSt := by
  unfold Dev.propose Dev.toLead
  split
  · exact Dev.keep_work _ _ _
  · rfl
@[simp] theorem Dev.propose_group (d : Dev) (c : Change) : (d.propose c).toGroupSt = d.toGroupSt := by
  unfold Dev.propose Dev.toLead
  split
  · exact Dev.keep_group _ _ _
  · rfl
@[simp] theorem Dev.propose_regs (d : Dev) (c : Change) : (d.propose c).regs = d.regs := by
  unfold Dev.propose Dev.toLead
  split
  · exact Dev.keep_regs _ _ _
  · rfl

/-! ### Interrupts and fault records -/

@[simp] theorem Dev.alert_store (d : Dev) (b : Nat) : (d.alert b).toStoreSt = d.toStoreSt := rfl
@[simp] theorem Dev.alert_work (d : Dev) (b : Nat) : (d.alert b).toWorkSt = d.toWorkSt := rfl
@[simp] theorem Dev.alert_group (d : Dev) (b : Nat) : (d.alert b).toGroupSt = d.toGroupSt := rfl
@[simp] theorem Dev.alert_regs (d : Dev) (b : Nat) : (d.alert b).regs = d.regs := rfl
@[simp] theorem Dev.alert_shown (d : Dev) (b : Nat) : (d.alert b).out = d.out := rfl
@[simp] theorem Dev.sideQueue_store (d : Dev) (ws : List Nat) : (d.sideQueue ws).toStoreSt = d.toStoreSt := by
  unfold Dev.sideQueue
  split <;> rfl
@[simp] theorem Dev.sideQueue_work (d : Dev) (ws : List Nat) : (d.sideQueue ws).toWorkSt = d.toWorkSt := by
  unfold Dev.sideQueue
  split <;> rfl
@[simp] theorem Dev.sideQueue_group (d : Dev) (ws : List Nat) : (d.sideQueue ws).toGroupSt = d.toGroupSt := by
  unfold Dev.sideQueue
  split <;> rfl
@[simp] theorem Dev.sideQueue_regs (d : Dev) (ws : List Nat) : (d.sideQueue ws).regs = d.regs := by
  unfold Dev.sideQueue
  split <;> rfl
@[simp] theorem Dev.sideQueue_shown (d : Dev) (ws : List Nat) : (d.sideQueue ws).out = d.out := by
  unfold Dev.sideQueue
  split <;> rfl

@[simp] theorem Dev.sendVec_store (d : Dev) (f v : Nat) : (d.sendVec f v).toStoreSt = d.toStoreSt := by
  unfold Dev.sendVec
  dsimp only
  split
  · split <;> simp
  · simp
@[simp] theorem Dev.sendVec_work (d : Dev) (f v : Nat) : (d.sendVec f v).toWorkSt = d.toWorkSt := by
  unfold Dev.sendVec
  dsimp only
  split
  · split <;> simp
  · simp
@[simp] theorem Dev.sendVec_group (d : Dev) (f v : Nat) : (d.sendVec f v).toGroupSt = d.toGroupSt := by
  unfold Dev.sendVec
  dsimp only
  split
  · split <;> simp
  · simp

/-- Raising an interrupt keeps whatever sending it, counting it and holding it in the PBA keep. -/
theorem Dev.raiseVec_keeps {γ : Type} (g : Dev → γ) (hs : ∀ d f v, g (Dev.sendVec d f v) = g d)
    (hi : ∀ d f i n, g (Dev.inc d f i n) = g d) (hp : ∀ (d : Dev) p, g { d with pba := p } = g d) (d : Dev) (f v : Nat) :
    g (d.raiseVec f v) = g d := by
  unfold Dev.raiseVec
  dsimp only
  split
  · split
    · exact hi ..
    · split
      · exact hp ..
      · exact hs ..
  · rfl

@[simp] theorem Dev.raiseVec_store (d : Dev) (f v : Nat) : (d.raiseVec f v).toStoreSt = d.toStoreSt :=
  Dev.raiseVec_keeps Dev.toStoreSt Dev.sendVec_store (fun _ _ _ _ => rfl) (fun _ _ => rfl) d f v
@[simp] theorem Dev.raiseVec_group (d : Dev) (f v : Nat) : (d.raiseVec f v).toGroupSt = d.toGroupSt :=
  Dev.raiseVec_keeps Dev.toGroupSt Dev.sendVec_group (fun _ _ _ _ => rfl) (fun _ _ => rfl) d f v
@[simp] theorem Dev.raiseVec_jobs (d : Dev) (f v : Nat) : (d.raiseVec f v).jobs = d.jobs :=
  Dev.raiseVec_keeps (fun d => d.jobs) (fun d f v => by rw [Dev.sendVec_work]) (fun _ _ _ _ => rfl) (fun _ _ => rfl) d f v
@[simp] theorem Dev.raiseVec_threads (d : Dev) (f v : Nat) : (d.raiseVec f v).threads = d.threads :=
  Dev.raiseVec_keeps (fun d => d.threads) (fun d f v => by rw [Dev.sendVec_work]) (fun _ _ _ _ => rfl) (fun _ _ => rfl) d f v

@[simp] theorem Dev.putRecord_store (d : Dev) (f : Nat) (b : Bool) (a : Nat) (ws : List Nat) :
    (d.putRecord f b a ws).toStoreSt = d.toStoreSt := by
  unfold Dev.putRecord
  split <;> exact Dev.emits_store _ _
@[simp] theorem Dev.putRecord_work (d : Dev) (f : Nat) (b : Bool) (a : Nat) (ws : List Nat) :
    (d.putRecord f b a ws).toWorkSt = d.toWorkSt := by
  unfold Dev.putRecord
  split <;> exact Dev.emits_work _ _
@[simp] theorem Dev.putRecord_group (d : Dev) (f : Nat) (b : Bool) (a : Nat) (ws : List Nat) :
    (d.putRecord f b a ws).toGroupSt = d.toGroupSt := by
  unfold Dev.putRecord
  split <;> exact Dev.emits_group _ _

/-- Reporting a fault keeps whatever its pieces keep. -/
theorem Dev.fault2_keeps {γ : Type} (g : Dev → γ) (hr : ∀ d f v, g (Dev.raiseVec d f v) = g d)
    (hw : ∀ d f i v, g (Dev.wr d f i v) = g d) (hp : ∀ d f b a ws, g (Dev.putRecord d f b a ws) = g d)
    (hq : ∀ d ws, g (Dev.sideQueue d ws) = g d) (d : Dev) (tmr : Nat) (r : FRec) : g (d.fault2 tmr r).1 = g d := by
  have hput : ∀ (d : Dev) f (r : FRec) t, g (d.faultPut f r t) = g d := by
    intro d f r t
    unfold Dev.faultPut
    dsimp only
    rw [hr]
    refine (hw ..).trans ?_
    split
    · rfl
    · exact hp ..
  have hlose : ∀ (d : Dev) f (r : FRec), g (d.faultLose f r) = g d := by
    intro d f r
    unfold Dev.faultLose
    dsimp only
    split
    · rw [hr]
      split
      · exact (hw ..).trans (hw ..)
      · exact hw ..
    · split
      · exact (hw ..).trans (hw ..)
      · exact hw ..
  have hboth : ∀ (d : Dev) f, g (if d.faultFull f r.cls then (d.faultLose f r, 2) else (d.faultPut f r tmr, 1)).1 = g d := by
    intro d f
    split
    · exact hlose ..
    · exact hput ..
  unfold Dev.fault2
  refine (hboth ..).trans ?_
  split
  · exact hq ..
  · rfl

@[simp] theorem Dev.fault2_store (d : Dev) (tmr : Nat) (r : FRec) : (d.fault2 tmr r).1.toStoreSt = d.toStoreSt :=
  Dev.fault2_keeps Dev.toStoreSt Dev.raiseVec_store (fun _ _ _ _ => rfl) Dev.putRecord_store Dev.sideQueue_store d tmr r
@[simp] theorem Dev.fault2_group (d : Dev) (tmr : Nat) (r : FRec) : (d.fault2 tmr r).1.toGroupSt = d.toGroupSt :=
  Dev.fault2_keeps Dev.toGroupSt Dev.raiseVec_group (fun _ _ _ _ => rfl) Dev.putRecord_group Dev.sideQueue_group d tmr r
@[simp] theorem Dev.fault2_jobs (d : Dev) (tmr : Nat) (r : FRec) : (d.fault2 tmr r).1.jobs = d.jobs :=
  Dev.fault2_keeps (fun d => d.jobs) Dev.raiseVec_jobs (fun _ _ _ _ => rfl) (fun _ _ _ _ _ => by rw [Dev.putRecord_work])
    (fun _ _ => by rw [Dev.sideQueue_work]) d tmr r
@[simp] theorem Dev.fault2_threads (d : Dev) (tmr : Nat) (r : FRec) : (d.fault2 tmr r).1.threads = d.threads :=
  Dev.fault2_keeps (fun d => d.threads) Dev.raiseVec_threads (fun _ _ _ _ => rfl) (fun _ _ _ _ _ => by rw [Dev.putRecord_work])
    (fun _ _ => by rw [Dev.sideQueue_work]) d tmr r
@[simp] theorem Dev.fault_store (d : Dev) (tmr : Nat) (r : FRec) : (d.fault tmr r).toStoreSt = d.toStoreSt :=
  Dev.fault2_store d tmr r
@[simp] theorem Dev.fault_group (d : Dev) (tmr : Nat) (r : FRec) : (d.fault tmr r).toGroupSt = d.toGroupSt :=
  Dev.fault2_group d tmr r
@[simp] theorem Dev.fault_jobs (d : Dev) (tmr : Nat) (r : FRec) : (d.fault tmr r).jobs = d.jobs := Dev.fault2_jobs d tmr r
@[simp] theorem Dev.fault_threads (d : Dev) (tmr : Nat) (r : FRec) : (d.fault tmr r).threads = d.threads :=
  Dev.fault2_threads d tmr r

/-! ### Heels and rollbacks asked for -/

@[simp] theorem Dev.want_store (d : Dev) (t : Tr) : (d.want t).toStoreSt = d.toStoreSt := by
  unfold Dev.want
  split <;> rfl
@[simp] theorem Dev.want_work (d : Dev) (t : Tr) : (d.want t).toWorkSt = d.toWorkSt := by
  unfold Dev.want
  split <;> rfl
@[simp] theorem Dev.want_sys (d : Dev) (t : Tr) : (d.want t).toSysSt = d.toSysSt := by
  unfold Dev.want
  split <;> rfl
@[simp] theorem Dev.want_regs (d : Dev) (t : Tr) : (d.want t).regs = d.regs := by
  unfold Dev.want
  split <;> rfl
/-- A transition that is asked for is wanted. -/
theorem Dev.mem_want (d : Dev) (t : Tr) : t ∈ (d.want t).wanted := by
  unfold Dev.want
  split
  · simpa using ‹d.wanted.contains t = true›
  · simp
@[simp] theorem Dev.offer_store (d : Dev) (c : Cx) (k o n : Nat) : (d.offer c k o n).toStoreSt = d.toStoreSt := by
  unfold Dev.offer
  exact Dev.emit_store _ _
@[simp] theorem Dev.offer_work (d : Dev) (c : Cx) (k o n : Nat) : (d.offer c k o n).toWorkSt = d.toWorkSt := by
  unfold Dev.offer
  exact Dev.emit_work _ _
@[simp] theorem Dev.heelAll_store (d : Dev) (s e f x : Nat) : (d.heelAll s e f x).toStoreSt = d.toStoreSt :=
  foldl_keeps Dev.toStoreSt _ (fun a _ => Dev.emit_store a _) _ d
@[simp] theorem Dev.heelAll_work (d : Dev) (s e f x : Nat) : (d.heelAll s e f x).toWorkSt = d.toWorkSt :=
  foldl_keeps Dev.toWorkSt _ (fun a _ => Dev.emit_work a _) _ d
@[simp] theorem Dev.heelAll_group (d : Dev) (s e f x : Nat) : (d.heelAll s e f x).toGroupSt = d.toGroupSt :=
  foldl_keeps Dev.toGroupSt _ (fun a _ => Dev.emit_group a _) _ d
@[simp] theorem Dev.askRollback_store (d : Dev) (c : Cx) (x : Nat) : (d.askRollback c x).toStoreSt = d.toStoreSt := by
  unfold Dev.askRollback Dev.leadRollback
  split
  · rfl
  · split
    · split
      · rfl
      · exact Dev.heelAll_store _ _ _ _ _
    · exact Dev.offer_store _ _ _ _ _
@[simp] theorem Dev.askRollback_work (d : Dev) (c : Cx) (x : Nat) : (d.askRollback c x).toWorkSt = d.toWorkSt := by
  unfold Dev.askRollback Dev.leadRollback
  split
  · rfl
  · split
    · split
      · rfl
      · exact Dev.heelAll_work _ _ _ _ _
    · exact Dev.offer_work _ _ _ _ _
@[simp] theorem Dev.askHeel_store (d : Dev) (c : Cx) : (d.askHeel c).toStoreSt = d.toStoreSt := by
  unfold Dev.askHeel
  split
  · split <;> rfl
  · exact Dev.offer_store _ _ _ _ _
@[simp] theorem Dev.askHeel_work (d : Dev) (c : Cx) : (d.askHeel c).toWorkSt = d.toWorkSt := by
  unfold Dev.askHeel
  split
  · split <;> rfl
  · exact Dev.offer_work _ _ _ _ _

/-! ### The transition controller and module resets -/

@[simp] theorem Dev.begin_store (d : Dev) (c : Cx) (t : Tr) : (d.begin c t).toStoreSt = d.toStoreSt := rfl
@[simp] theorem Dev.begin_work (d : Dev) (c : Cx) (t : Tr) : (d.begin c t).toWorkSt = d.toWorkSt := rfl
@[simp] theorem Dev.begin_sys (d : Dev) (c : Cx) (t : Tr) : (d.begin c t).toSysSt = d.toSysSt := rfl
@[simp] theorem Dev.begin_regs (d : Dev) (c : Cx) (t : Tr) : (d.begin c t).regs = d.regs := rfl
@[simp] theorem Dev.begin_active (d : Dev) (c : Cx) (t : Tr) : (d.begin c t).active = some t := rfl
@[simp] theorem Dev.finish_store (d : Dev) (t : Tr) : (d.finish t).toStoreSt = d.toStoreSt := rfl
@[simp] theorem Dev.finish_work (d : Dev) (t : Tr) : (d.finish t).toWorkSt = d.toWorkSt := rfl
@[simp] theorem Dev.finish_sys (d : Dev) (t : Tr) : (d.finish t).toSysSt = d.toSysSt := rfl
@[simp] theorem Dev.finish_running (d : Dev) (t : Tr) : (d.finish t).running = d.running.filter (·.tr ≠ t) := rfl
@[simp] theorem Dev.finish_wanted (d : Dev) (t : Tr) : (d.finish t).wanted = d.wanted := rfl
@[simp] theorem Dev.supersede_store (d : Dev) (p : Tr → Bool) : (d.supersede p).toStoreSt = d.toStoreSt := rfl
@[simp] theorem Dev.supersede_work (d : Dev) (p : Tr → Bool) : (d.supersede p).toWorkSt = d.toWorkSt := rfl
@[simp] theorem Dev.supersede_sys (d : Dev) (p : Tr → Bool) : (d.supersede p).toSysSt = d.toSysSt := rfl

@[simp] theorem Dev.askReset_store (d : Dev) (c : Cx) (x : Nat) : (d.askReset c x).1.toStoreSt = d.toStoreSt := by
  unfold Dev.askReset
  dsimp only
  repeat' split
  all_goals rfl
@[simp] theorem Dev.askReset_work (d : Dev) (c : Cx) (x : Nat) : (d.askReset c x).1.toWorkSt = d.toWorkSt := by
  unfold Dev.askReset
  dsimp only
  repeat' split
  all_goals rfl
@[simp] theorem Dev.lose_store (d : Dev) (c : Cx) (x : Nat) : (d.lose c x).toStoreSt = d.toStoreSt := by
  unfold Dev.lose
  split
  · rfl
  · dsimp only
    split <;> simp
@[simp] theorem Dev.lose_jobs (d : Dev) (c : Cx) (x : Nat) : (d.lose c x).jobs = d.jobs := by
  unfold Dev.lose
  split
  · rfl
  · dsimp only
    split <;> simp
@[simp] theorem Dev.lose_threads (d : Dev) (c : Cx) (x : Nat) : (d.lose c x).threads = d.threads := by
  unfold Dev.lose
  split
  · rfl
  · dsimp only
    split <;> simp
@[simp] theorem Dev.requestReset_store (d : Dev) (c : Cx) (x : Nat) : (d.requestReset c x).toStoreSt = d.toStoreSt := by
  unfold Dev.requestReset
  dsimp only
  split <;> simp
@[simp] theorem Dev.requestReset_jobs (d : Dev) (c : Cx) (x : Nat) : (d.requestReset c x).jobs = d.jobs := by
  unfold Dev.requestReset
  dsimp only
  split <;> simp
@[simp] theorem Dev.requestReset_threads (d : Dev) (c : Cx) (x : Nat) : (d.requestReset c x).threads = d.threads := by
  unfold Dev.requestReset
  dsimp only
  split <;> simp

/-! ### Leashes -/

@[simp] theorem Dev.charge_store (d : Dev) (l : LshRegs) (i n b : Nat) : (d.charge l i n b).toStoreSt = d.toStoreSt := by
  unfold Dev.charge
  dsimp only
  split <;> rfl
@[simp] theorem Dev.charge_work (d : Dev) (l : LshRegs) (i n b : Nat) : (d.charge l i n b).toWorkSt = d.toWorkSt := by
  unfold Dev.charge
  dsimp only
  split <;> rfl
@[simp] theorem Dev.charge_group (d : Dev) (l : LshRegs) (i n b : Nat) : (d.charge l i n b).toGroupSt = d.toGroupSt := by
  unfold Dev.charge
  dsimp only
  split <;> rfl
@[simp] theorem Dev.charge_sys (d : Dev) (l : LshRegs) (i n b : Nat) : (d.charge l i n b).toSysSt = d.toSysSt := by
  unfold Dev.charge
  dsimp only
  split <;> rfl
@[simp] theorem Dev.charge_shown (d : Dev) (l : LshRegs) (i n b : Nat) : (d.charge l i n b).out = d.out := by
  unfold Dev.charge
  dsimp only
  split <;> rfl
@[simp] theorem Dev.chargePort_store (d : Dev) (p f k b : Nat) : (d.chargePort p f k b).toStoreSt = d.toStoreSt := by
  unfold Dev.chargePort
  split
  · rfl
  · simp
@[simp] theorem Dev.chargePort_work (d : Dev) (p f k b : Nat) : (d.chargePort p f k b).toWorkSt = d.toWorkSt := by
  unfold Dev.chargePort
  split
  · rfl
  · simp
@[simp] theorem Dev.chargePort_group (d : Dev) (p f k b : Nat) : (d.chargePort p f k b).toGroupSt = d.toGroupSt := by
  unfold Dev.chargePort
  split
  · rfl
  · simp
@[simp] theorem Dev.chargePort_shown (d : Dev) (p f k b : Nat) : (d.chargePort p f k b).out = d.out := by
  unfold Dev.chargePort
  split
  · rfl
  · simp

/-! ### Threads and descriptors -/

@[simp] theorem Dev.pick_store (d : Dev) : d.pick.2.toStoreSt = d.toStoreSt := rfl
@[simp] theorem Dev.pick_group (d : Dev) : d.pick.2.toGroupSt = d.toGroupSt := rfl
@[simp] theorem Dev.pick_sys (d : Dev) : d.pick.2.toSysSt = d.toSysSt := rfl
@[simp] theorem Dev.pick_regs (d : Dev) : d.pick.2.regs = d.regs := rfl
@[simp] theorem Dev.pick_jobs (d : Dev) : d.pick.2.jobs = d.jobs := rfl
@[simp] theorem Dev.pick_threads (d : Dev) : d.pick.2.threads = d.threads := rfl

@[simp] theorem Dev.putThread_store (d : Dev) (b k : Nat) (t : Thread) : (d.putThread b k t).toStoreSt = d.toStoreSt := rfl
@[simp] theorem Dev.putThread_group (d : Dev) (b k : Nat) (t : Thread) : (d.putThread b k t).toGroupSt = d.toGroupSt := rfl
@[simp] theorem Dev.putThread_sys (d : Dev) (b k : Nat) (t : Thread) : (d.putThread b k t).toSysSt = d.toSysSt := rfl
@[simp] theorem Dev.putThread_regs (d : Dev) (b k : Nat) (t : Thread) : (d.putThread b k t).regs = d.regs := rfl
@[simp] theorem Dev.putThread_shown (d : Dev) (b k : Nat) (t : Thread) : (d.putThread b k t).out = d.out := rfl
@[simp] theorem Dev.putThread_jobs (d : Dev) (b k : Nat) (t : Thread) : (d.putThread b k t).jobs = d.jobs := rfl
/-- A thread reads as it was put. -/
@[simp] theorem Dev.thread_putThread (d : Dev) (b k : Nat) (t : Thread) : (d.putThread b k t).thread b k = some t :=
  tget_tset_same _ _ _
/-- Putting a thread changes no other. -/
theorem Dev.thread_putThread_ne (d : Dev) (b k b' k' : Nat) (t : Thread) (h : thrKey b' k' ≠ thrKey b k) :
    (d.putThread b k t).thread b' k' = d.thread b' k' := tget_tset_ne _ _ _ _ h

@[simp] theorem Dev.updJob_store (d : Dev) (r i : Nat) (f : Job → Job) : (d.updJob r i f).toStoreSt = d.toStoreSt := rfl
@[simp] theorem Dev.updJob_group (d : Dev) (r i : Nat) (f : Job → Job) : (d.updJob r i f).toGroupSt = d.toGroupSt := rfl
@[simp] theorem Dev.updJob_sys (d : Dev) (r i : Nat) (f : Job → Job) : (d.updJob r i f).toSysSt = d.toSysSt := rfl
@[simp] theorem Dev.updJob_regs (d : Dev) (r i : Nat) (f : Job → Job) : (d.updJob r i f).regs = d.regs := rfl
@[simp] theorem Dev.updJob_shown (d : Dev) (r i : Nat) (f : Job → Job) : (d.updJob r i f).out = d.out := rfl
@[simp] theorem Dev.updJob_threads (d : Dev) (r i : Nat) (f : Job → Job) : (d.updJob r i f).threads = d.threads := rfl
@[simp] theorem Dev.endJob_store (d : Dev) (r i : Nat) (x : Res) : (d.endJob r i x).toStoreSt = d.toStoreSt := rfl
@[simp] theorem Dev.endJob_group (d : Dev) (r i : Nat) (x : Res) : (d.endJob r i x).toGroupSt = d.toGroupSt := rfl
@[simp] theorem Dev.endJob_sys (d : Dev) (r i : Nat) (x : Res) : (d.endJob r i x).toSysSt = d.toSysSt := rfl
@[simp] theorem Dev.endJob_regs (d : Dev) (r i : Nat) (x : Res) : (d.endJob r i x).regs = d.regs := rfl
@[simp] theorem Dev.endJob_shown (d : Dev) (r i : Nat) (x : Res) : (d.endJob r i x).out = d.out := rfl
@[simp] theorem Dev.endJob_threads (d : Dev) (r i : Nat) (x : Res) : (d.endJob r i x).threads = d.threads := rfl

@[simp] theorem Dev.latchRes_store (d : Dev) (c : Cx) (t : Thread) (b k : Nat) (l : Latch) (r : Res) :
    (d.latchRes c t b k l r).1.toStoreSt = d.toStoreSt := by
  unfold Dev.latchRes
  split
  · rfl
  · exact Dev.fault2_store _ _ _
@[simp] theorem Dev.latchRes_group (d : Dev) (c : Cx) (t : Thread) (b k : Nat) (l : Latch) (r : Res) :
    (d.latchRes c t b k l r).1.toGroupSt = d.toGroupSt := by
  unfold Dev.latchRes
  split
  · rfl
  · exact Dev.fault2_group _ _ _
@[simp] theorem Dev.latchRes_jobs (d : Dev) (c : Cx) (t : Thread) (b k : Nat) (l : Latch) (r : Res) :
    (d.latchRes c t b k l r).1.jobs = d.jobs := by
  unfold Dev.latchRes
  split
  · rfl
  · exact Dev.fault2_jobs _ _ _

/-- Resolving the end of a run keeps whatever its record and the thread's table keep. -/
theorem Dev.resolveDone_keeps {γ : Type} (g : Dev → γ) (hp : ∀ d b k t, g (Dev.putThread d b k t) = g d)
    (hl : ∀ d c t b k l r, g (Dev.latchRes d c t b k l r).1 = g d) (d : Dev) (c : Cx) (b k : Nat) :
    g (d.resolveDone c b k) = g d := by
  unfold Dev.resolveDone
  split
  · rfl
  · split
    · rfl
    · split
      · rfl
      · split
        · split
          · exact (hp ..).trans (hl ..)
          · exact hp ..
        · split
          · exact hp ..
          · split
            · refine (hp ..).trans ?_
              exact hl d c _ b k ⟨0x16, 0x03, 0, _, none, 2 ^ 20, 0, 0, 0, false⟩ (by assumption)
            · exact hp ..

@[simp] theorem Dev.resolveDone_store (d : Dev) (c : Cx) (b k : Nat) : (d.resolveDone c b k).toStoreSt = d.toStoreSt :=
  Dev.resolveDone_keeps Dev.toStoreSt (fun _ _ _ _ => rfl) Dev.latchRes_store d c b k
@[simp] theorem Dev.resolveDone_group (d : Dev) (c : Cx) (b k : Nat) : (d.resolveDone c b k).toGroupSt = d.toGroupSt :=
  Dev.resolveDone_keeps Dev.toGroupSt (fun _ _ _ _ => rfl) Dev.latchRes_group d c b k
@[simp] theorem Dev.resolveDone_jobs (d : Dev) (c : Cx) (b k : Nat) : (d.resolveDone c b k).jobs = d.jobs :=
  Dev.resolveDone_keeps (fun d => d.jobs) (fun _ _ _ _ => rfl) Dev.latchRes_jobs d c b k
@[simp] theorem Dev.drain_store (d : Dev) (c : Cx) (b k n : Nat) (r : Res) : (d.drain c b k n r).toStoreSt = d.toStoreSt := by
  unfold Dev.drain
  split <;> simp
@[simp] theorem Dev.drain_group (d : Dev) (c : Cx) (b k n : Nat) (r : Res) : (d.drain c b k n r).toGroupSt = d.toGroupSt := by
  unfold Dev.drain
  split <;> simp
@[simp] theorem Dev.drain_jobs (d : Dev) (c : Cx) (b k n : Nat) (r : Res) : (d.drain c b k n r).jobs = d.jobs := by
  unfold Dev.drain
  split <;> simp
@[simp] theorem Dev.endFault_store (d : Dev) (c : Cx) (b k : Nat) (l : Latch) (f : Bool) :
    (d.endFault c b k l f).toStoreSt = d.toStoreSt := by
  unfold Dev.endFault
  split <;> simp
@[simp] theorem Dev.endFault_group (d : Dev) (c : Cx) (b k : Nat) (l : Latch) (f : Bool) :
    (d.endFault c b k l f).toGroupSt = d.toGroupSt := by
  unfold Dev.endFault
  split <;> simp
@[simp] theorem Dev.endFault_jobs (d : Dev) (c : Cx) (b k : Nat) (l : Latch) (f : Bool) :
    (d.endFault c b k l f).jobs = d.jobs := by
  unfold Dev.endFault
  split <;> simp

/-- Selecting the next step keeps whatever the counters, a trace entry, a free value and the thread's table keep. -/
theorem Dev.select_keeps {γ : Type} (g : Dev → γ) (hp : ∀ d b k t, g (Dev.putThread d b k t) = g d)
    (hw : ∀ d f i v, g (Dev.wr d f i v) = g d) (ht : ∀ (d : Dev) x, g { d with trace := x } = g d)
    (hf : ∀ d, g (Dev.pick d).2 = g d) (d : Dev) (c : Cx) (b k : Nat) : g (d.select c b k) = g d := by
  have hadd : ∀ (d : Dev) b e, g (d.traceAdd b e) = g d := by
    intro d b e
    unfold Dev.traceAdd
    dsimp only
    split
    · rfl
    · split
      · split
        · exact ((hw ..).trans (hw ..)).trans ((hw ..).trans (ht ..))
        · exact (hw ..).trans ((hw ..).trans (ht ..))
      · split
        · exact (hw ..).trans ((hw ..).trans (ht ..))
        · exact (hw ..).trans (ht ..)
  unfold Dev.select
  split
  · rfl
  · dsimp only
    refine (hp ..).trans ?_
    split
    · exact (hadd ..).trans ((hf ..).trans (hw ..))
    · exact hw ..

@[simp] theorem Dev.select_store (d : Dev) (c : Cx) (b k : Nat) : (d.select c b k).toStoreSt = d.toStoreSt :=
  Dev.select_keeps Dev.toStoreSt (fun _ _ _ _ => rfl) (fun _ _ _ _ => rfl) (fun _ _ => rfl) (fun _ => rfl) d c b k
@[simp] theorem Dev.select_group (d : Dev) (c : Cx) (b k : Nat) : (d.select c b k).toGroupSt = d.toGroupSt :=
  Dev.select_keeps Dev.toGroupSt (fun _ _ _ _ => rfl) (fun _ _ _ _ => rfl) (fun _ _ => rfl) (fun _ => rfl) d c b k
@[simp] theorem Dev.select_sys (d : Dev) (c : Cx) (b k : Nat) : (d.select c b k).toSysSt = d.toSysSt :=
  Dev.select_keeps Dev.toSysSt (fun _ _ _ _ => rfl) (fun _ _ _ _ => rfl) (fun _ _ => rfl) (fun _ => rfl) d c b k
@[simp] theorem Dev.select_shown (d : Dev) (c : Cx) (b k : Nat) : (d.select c b k).out = d.out :=
  Dev.select_keeps Dev.out (fun _ _ _ _ => rfl) (fun _ _ _ _ => rfl) (fun _ _ => rfl) (fun _ => rfl) d c b k
@[simp] theorem Dev.select_jobs (d : Dev) (c : Cx) (b k : Nat) : (d.select c b k).jobs = d.jobs :=
  Dev.select_keeps (fun d => d.jobs) (fun _ _ _ _ => rfl) (fun _ _ _ _ => rfl) (fun _ _ => rfl) (fun _ => rfl) d c b k

/-! ### Rings -/

@[simp] theorem Dev.dropJob_store (d : Dev) (c : Cx) (j : Job) : (d.dropJob c j).toStoreSt = d.toStoreSt := rfl
@[simp] theorem Dev.dropJob_group (d : Dev) (c : Cx) (j : Job) : (d.dropJob c j).toGroupSt = d.toGroupSt := rfl
@[simp] theorem Dev.dropJob_shown (d : Dev) (c : Cx) (j : Job) : (d.dropJob c j).out = d.out := rfl
@[simp] theorem Dev.dropJob_threads (d : Dev) (c : Cx) (j : Job) : (d.dropJob c j).threads = d.threads := rfl
@[simp] theorem Dev.ringIrq_store (d : Dev) (r : Nat) : (d.ringIrq r).toStoreSt = d.toStoreSt := Dev.raiseVec_store _ _ _
@[simp] theorem Dev.ringIrq_group (d : Dev) (r : Nat) : (d.ringIrq r).toGroupSt = d.toGroupSt := Dev.raiseVec_group _ _ _
@[simp] theorem Dev.ringIrq_jobs (d : Dev) (r : Nat) : (d.ringIrq r).jobs = d.jobs := Dev.raiseVec_jobs _ _ _
@[simp] theorem Dev.ringIrq_threads (d : Dev) (r : Nat) : (d.ringIrq r).threads = d.threads := Dev.raiseVec_threads _ _ _
/-- A completion counts toward its ring's interrupt: what the counts and the interrupt keep is kept. -/
theorem Dev.moderate_keeps {γ : Type} (g : Dev → γ) (hi : ∀ d r, g (Dev.ringIrq d r) = g d)
    (hp : ∀ (d : Dev) x y, g { d with irqP := x, irqT := y } = g d) (d : Dev) (c : Cx) (r : Nat) (n : Bool) :
    g (d.moderate c r n) = g d := by
  have key : ∀ (d : Dev) (b : Bool), g (if b then d.ringIrq r else d) = g d := by
    intro d b
    split
    · exact hi ..
    · rfl
  unfold Dev.moderate
  split
  · rfl
  · exact (key _ _).trans (hp ..)

@[simp] theorem Dev.moderate_store (d : Dev) (c : Cx) (r : Nat) (n : Bool) : (d.moderate c r n).toStoreSt = d.toStoreSt :=
  Dev.moderate_keeps Dev.toStoreSt Dev.ringIrq_store (fun _ _ _ => rfl) d c r n
@[simp] theorem Dev.moderate_group (d : Dev) (c : Cx) (r : Nat) (n : Bool) : (d.moderate c r n).toGroupSt = d.toGroupSt :=
  Dev.moderate_keeps Dev.toGroupSt Dev.ringIrq_group (fun _ _ _ => rfl) d c r n
@[simp] theorem Dev.moderate_jobs (d : Dev) (c : Cx) (r : Nat) (n : Bool) : (d.moderate c r n).jobs = d.jobs :=
  Dev.moderate_keeps (fun d => d.jobs) Dev.ringIrq_jobs (fun _ _ _ => rfl) d c r n
@[simp] theorem Dev.moderate_threads (d : Dev) (c : Cx) (r : Nat) (n : Bool) : (d.moderate c r n).threads = d.threads :=
  Dev.moderate_keeps (fun d => d.threads) Dev.ringIrq_threads (fun _ _ _ => rfl) d c r n

/-! ### Leaky counters -/

@[simp] theorem Dev.leakSet_mem (d : Dev) (k i n : Nat) : (d.leakSet k i n).mem = d.mem := rfl
@[simp] theorem Dev.leakSet_work (d : Dev) (k i n : Nat) : (d.leakSet k i n).toWorkSt = d.toWorkSt := rfl
@[simp] theorem Dev.leakSet_group (d : Dev) (k i n : Nat) : (d.leakSet k i n).toGroupSt = d.toGroupSt := rfl
@[simp] theorem Dev.leakSet_sys (d : Dev) (k i n : Nat) : (d.leakSet k i n).toSysSt = d.toSysSt := rfl
@[simp] theorem Dev.leakSet_regs (d : Dev) (k i n : Nat) : (d.leakSet k i n).regs = d.regs := rfl

end Sys2Proof.Machine
end

