-- ==== Sys2Proof/WellFormed.lean ====
section
/-! DEFINITION. Well-formed commands: every operand lies within the width or the count the spec gives it. The meanings do not
need it: they are total, and an operand outside its range names an instance that does not exist. -/
namespace Sys2Proof

/-- A header's fields fit (R458): 14-bit node, 16-bit tag, 50-bit offset, 96 links, 10-bit collar. -/
def Hdr.wf (h : Hdr) : Bool :=
  decide (h.src < 2 ^ 14) && decide (h.tag < 2 ^ 16) && decide (h.off < 2 ^ 50) && decide (h.link < 96) && decide (h.collar < 2 ^ 10)

/-- The sizes an access of CXL.io can have, of which R14 accepts 4 and 8 bytes. -/
def okWidth (w : Nat) : Bool := [1, 2, 4, 8].contains w

/-- The widths of the port (R418): 1, 2, 4 or 8 lanes. -/
def okLanes (w : Nat) : Bool := [1, 2, 4, 8].contains w

/-- A descriptor: eight 64-bit words (R160). -/
def okWords (ws : List Nat) : Bool := ws.length = 8 && ws.all fun w => decide (w < 2 ^ 64)

set_option maxRecDepth 4000 in
/-- Is a command well-formed? -/
def Instr.wf (i : Instr) : Bool :=
  match i with
  | .tailDoorbell fn lring tail _ => decide (fn < 513) && decide (lring < 64) && decide (tail < 2 ^ 32)
  | .resumeDoorbell fn lring tail _ => decide (fn < 513) && decide (lring < 64) && decide (tail < 2 ^ 32)
  | .cheadDoorbell fn lring chead _ => decide (fn < 513) && decide (lring < 64) && decide (chead < 2 ^ 32)
  | .fheadDoorbell fn fhead _ => decide (fn < 513) && decide (fhead < 2 ^ 32)
  | .doorbell h fn lring _ value => h.wf && decide (fn < 513) && decide (lring < 64) && decide (value < 2 ^ 64)
  | .descriptorFetch ring words _ => decide (ring < 4096) && okWords words
  | .fetchFailure ring _ => decide (ring < 4096)
  | .dispatch ring idx => decide (ring < 4096) && decide (idx < 2 ^ 32)
  | .threadStart bay thr => decide (bay < 32) && decide (thr < 8)
  | .ctlNop bay thr _ => decide (bay < 32) && decide (thr < 8)
  | .lcset bay thr _ => decide (bay < 32) && decide (thr < 8)
  | .smov bay thr _ => decide (bay < 32) && decide (thr < 8)
  | .sadd bay thr _ => decide (bay < 32) && decide (thr < 8)
  | .ssub bay thr _ => decide (bay < 32) && decide (thr < 8)
  | .sand bay thr _ => decide (bay < 32) && decide (thr < 8)
  | .sor bay thr _ => decide (bay < 32) && decide (thr < 8)
  | .sshl bay thr _ => decide (bay < 32) && decide (thr < 8)
  | .sshr bay thr _ => decide (bay < 32) && decide (thr < 8)
  | .smul bay thr _ => decide (bay < 32) && decide (thr < 8)
  | .ldseq bay thr _ => decide (bay < 32) && decide (thr < 8)
  | .ldrow bay thr _ => decide (bay < 32) && decide (thr < 8)
  | .ldidx bay thr _ => decide (bay < 32) && decide (thr < 8)
  | .ldshadow bay thr _ _ => decide (bay < 32) && decide (thr < 8)
  | .stseq bay thr _ => decide (bay < 32) && decide (thr < 8)
  | .strow bay thr _ => decide (bay < 32) && decide (thr < 8)
  | .stmask bay thr _ => decide (bay < 32) && decide (thr < 8)
  | .atomAtomic bay thr _ => decide (bay < 32) && decide (thr < 8)
  | .laneFma bay thr _ => decide (bay < 32) && decide (thr < 8)
  | .laneAdd bay thr _ => decide (bay < 32) && decide (thr < 8)
  | .laneMul bay thr _ => decide (bay < 32) && decide (thr < 8)
  | .laneMax bay thr _ => decide (bay < 32) && decide (thr < 8)
  | .laneMin bay thr _ => decide (bay < 32) && decide (thr < 8)
  | .laneScale bay thr _ => decide (bay < 32) && decide (thr < 8)
  | .laneDot bay thr _ => decide (bay < 32) && decide (thr < 8)
  | .mac8 bay thr _ => decide (bay < 32) && decide (thr < 8)
  | .mac4 bay thr _ => decide (bay < 32) && decide (thr < 8)
  | .quant bay thr _ => decide (bay < 32) && decide (thr < 8)
  | .dequant bay thr _ => decide (bay < 32) && decide (thr < 8)
  | .probe bay thr _ => decide (bay < 32) && decide (thr < 8)
  | .coalDrain bay thr _ => decide (bay < 32) && decide (thr < 8)
  | .acc bay thr _ _ => decide (bay < 32) && decide (thr < 8)
  | .combFlush bay thr _ _ => decide (bay < 32) && decide (thr < 8)
  | .sketchCount bay thr _ => decide (bay < 32) && decide (thr < 8)
  | .sketchRead bay thr _ => decide (bay < 32) && decide (thr < 8)
  | .pqPush bay thr _ => decide (bay < 32) && decide (thr < 8)
  | .pqPop bay thr _ => decide (bay < 32) && decide (thr < 8)
  | .pqPeek bay thr _ => decide (bay < 32) && decide (thr < 8)
  | .pqClear bay thr _ => decide (bay < 32) && decide (thr < 8)
  | .copy bay thr _ => decide (bay < 32) && decide (thr < 8)
  | .strmSeq bay thr _ => decide (bay < 32) && decide (thr < 8)
  | .strmIdx bay thr _ => decide (bay < 32) && decide (thr < 8)
  | .strmBag bay thr _ => decide (bay < 32) && decide (thr < 8)
  | .strmClose bay thr _ => decide (bay < 32) && decide (thr < 8)
  | .wait bay thr _ => decide (bay < 32) && decide (thr < 8)
  | .doneComplete bay thr _ => decide (bay < 32) && decide (thr < 8)
  | .doneFault bay thr _ => decide (bay < 32) && decide (thr < 8)
  | .donePark bay thr _ => decide (bay < 32) && decide (thr < 8)
  | .accessResponse bay thr _ _ => decide (bay < 32) && decide (thr < 8)
  | .threadFree bay thr => decide (bay < 32) && decide (thr < 8)
  | .stepWatchdog bay thr => decide (bay < 32) && decide (thr < 8)
  | .walkStart group => decide (group < 4)
  | .walkComplete collar _ _ => decide (collar < 2 ^ 10)
  | .moveTensor bay thr _ => decide (bay < 32) && decide (thr < 8)
  | .moveRaw bay thr _ => decide (bay < 32) && decide (thr < 8)
  | .moveGather bay thr _ => decide (bay < 32) && decide (thr < 8)
  | .compress bay thr _ => decide (bay < 32) && decide (thr < 8)
  | .expand bay thr _ => decide (bay < 32) && decide (thr < 8)
  | .convert bay thr _ => decide (bay < 32) && decide (thr < 8)
  | .mcastStore bay thr _ => decide (bay < 32) && decide (thr < 8)
  | .reduceRemote bay thr _ => decide (bay < 32) && decide (thr < 8)
  | .gatherPool bay thr _ => decide (bay < 32) && decide (thr < 8)
  | .scatterAddAdd bay thr _ => decide (bay < 32) && decide (thr < 8)
  | .requant bay thr _ => decide (bay < 32) && decide (thr < 8)
  | .adagrad bay thr _ => decide (bay < 32) && decide (thr < 8)
  | .shardProbe bay thr _ => decide (bay < 32) && decide (thr < 8)
  | .migrate bay thr _ => decide (bay < 32) && decide (thr < 8)
  | .release bay thr _ => decide (bay < 32) && decide (thr < 8)
  | .drop bay thr _ => decide (bay < 32) && decide (thr < 8)
  | .search bay thr _ => decide (bay < 32) && decide (thr < 8)
  | .insert bay thr _ => decide (bay < 32) && decide (thr < 8)
  | .delete bay thr _ => decide (bay < 32) && decide (thr < 8)
  | .merge bay thr _ => decide (bay < 32) && decide (thr < 8)
  | .sideSlotReread bay thr _ => decide (bay < 32) && decide (thr < 8)
  | .promote bay thr _ => decide (bay < 32) && decide (thr < 8)
  | .demote bay thr _ => decide (bay < 32) && decide (thr < 8)
  | .shadow bay thr _ => decide (bay < 32) && decide (thr < 8)
  | .shadowDrop bay thr _ => decide (bay < 32) && decide (thr < 8)
  | .heel ring idx => decide (ring < 4096) && decide (idx < 2 ^ 32)
  | .fence ring idx _ => decide (ring < 4096) && decide (idx < 2 ^ 32)
  | .fenceComplete ring idx _ => decide (ring < 4096) && decide (idx < 2 ^ 32)
  | .mark ring idx => decide (ring < 4096) && decide (idx < 2 ^ 32)
  | .xlateInvalRange ring idx _ => decide (ring < 4096) && decide (idx < 2 ^ 32)
  | .xlateInvalFunction ring idx _ => decide (ring < 4096) && decide (idx < 2 ^ 32)
  | .xlateInvalDrainEnd => true
  | .xlateInvalWindow ring idx => decide (ring < 4096) && decide (idx < 2 ^ 32)
  | .windowCloseDrainEnd window _ => decide (window < 8192)
  | .completionWrite ring idx => decide (ring < 4096) && decide (idx < 2 ^ 32)
  | .irqTimer ring => decide (ring < 4096)
  | .msixUnmask fn vec => decide (fn < 513) && decide (vec < 64)
  | .completionWriteFailure ring idx _ => decide (ring < 4096) && decide (idx < 2 ^ 32)
  | .faultRingWriteFailure fn _ => decide (fn < 513)
  | .rdShared h _ => h.wf
  | .rdOwn h _ => h.wf
  | .upgrade h _ => h.wf
  | .rdOnce h lines _ => h.wf && decide (lines < 5)
  | .wrLine h lines _ _ => h.wf && decide (lines < 5)
  | .wrMask h mask _ _ => h.wf && decide (mask < 2 ^ 64)
  | .wb h _ _ => h.wf
  | .atomic h _ _ _ _ _ _ => h.wf
  | .zeroMark h _ _ => h.wf
  | .mcBlock h _ _ => h.wf
  | .mcZero h => h.wf
  | .cmp h status => h.wf && decide (status < 8)
  | .data h status _ => h.wf && decide (status < 8)
  | .ack h => h.wf
  | .miss h => h.wf
  | .fwdDone h => h.wf
  | .fwdMiss h => h.wf
  | .snpData h _ => h.wf
  | .trackerAdmit _ => true
  | .snoopTimeout node _ => decide (node < 2 ^ 14)
  | .fabricTimeout tag => decide (tag < 2 ^ 16)
  | .birspTimeout spid _ => decide (spid < 512)
  | .memrd pbr tag hpa _ _ => decide (pbr < 2 ^ 12) && decide (tag < 2 ^ 16) && decide (hpa < 2 ^ 52)
  | .memrddata pbr tag hpa _ => decide (pbr < 2 ^ 12) && decide (tag < 2 ^ 16) && decide (hpa < 2 ^ 52)
  | .meminv pbr tag hpa _ => decide (pbr < 2 ^ 12) && decide (tag < 2 ^ 16) && decide (hpa < 2 ^ 52)
  | .memwr pbr tag hpa _ _ _ => decide (pbr < 2 ^ 12) && decide (tag < 2 ^ 16) && decide (hpa < 2 ^ 52)
  | .memwrptl pbr tag hpa mask _ _ _ => decide (pbr < 2 ^ 12) && decide (tag < 2 ^ 16) && decide (hpa < 2 ^ 52) && decide (mask < 2 ^ 64)
  | .memclnevct pbr tag hpa => decide (pbr < 2 ^ 12) && decide (tag < 2 ^ 16) && decide (hpa < 2 ^ 52)
  | .birsp pbr _ _ => decide (pbr < 2 ^ 12)
  | .biconflict pbr _ => decide (pbr < 2 ^ 12)
  | .cxlLinkLoss => true
  | .perstAssert => true
  | .perstRelease => true
  | .pcieFlr fn => decide (fn < 513)
  | .vfEnableClear => true
  | .ideIntegrityFailure _ => true
  | .hdmDecoderCommit dec _ _ _ _ _ _ _ _ => decide (dec < 8)
  | .getEventRecords log => decide (log < 5)
  | .clearEventRecords log _ _ => decide (log < 5)
  | .getEventInterruptPolicy => true
  | .setEventInterruptPolicy _ => true
  | .getFwInfo => true
  | .getTimestamp => true
  | .setTimestamp _ => true
  | .getSupportedLogs => true
  | .getLog _ => true
  | .identifyMemoryDevice => true
  | .getDynamicCapacityConfiguration => true
  | .getDynamicCapacityExtentList _ _ => true
  | .addDynamicCapacityResponse _ => true
  | .releaseDynamicCapacity _ => true
  | .mailboxUnsupported opcode => decide (opcode < 2 ^ 16)
  | .tableAccess => true
  | .getVersion via => decide (via < 2)
  | .getCapabilities via => decide (via < 2)
  | .negotiateAlgorithms via _ => decide (via < 2)
  | .getDigests via _ => decide (via < 2)
  | .getCertificate via _ _ _ _ => decide (via < 2)
  | .challenge via _ _ => decide (via < 2)
  | .getMeasurements via _ _ _ => decide (via < 2)
  | .keyExchange via _ => decide (via < 2)
  | .finish _ _ => true
  | .heartbeat _ => true
  | .sessionHeartbeatMiss _ => true
  | .keyUpdate _ _ => true
  | .endSession _ => true
  | .ideKm _ _ _ _ dir sub => decide (dir < 2) && decide (sub < 8)
  | .lockInterfaceRequest _ fn _ => decide (fn < 513)
  | .startInterfaceRequest _ fn _ => decide (fn < 513)
  | .stopInterfaceRequest _ fn => decide (fn < 513)
  | .linkDetect link => decide (link < 96)
  | .trainingStepTimeout link _ => decide (link < 96)
  | .ident link node _ _ _ _ _ => decide (link < 96) && decide (node < 2 ^ 14)
  | .keymsg link _ _ _ _ _ _ _ => decide (link < 96)
  | .flitReceive link _ => decide (link < 96)
  | .linkRetireEnd link => decide (link < 96)
  | .retryReq link seq => decide (link < 96) && decide (seq < 1024)
  | .retryReqRepeat link => decide (link < 96)
  | .credit link vc _ => decide (link < 96) && decide (vc < 8)
  | .messageTransmit link _ => decide (link < 96)
  | .rekey link _ => decide (link < 96)
  | .keySwitch link _ => decide (link < 96)
  | .keyReady link _ => decide (link < 96)
  | .keySwitchDeadline link => decide (link < 96)
  | .lossOfSignal link => decide (link < 96)
  | .linkEnable link => decide (link < 96)
  | .linkDisable link => decide (link < 96)
  | .retrain link => decide (link < 96)
  | .cablePresenceChange conn _ => decide (conn < 13)
  | .switchForward link _ => decide (link < 96)
  | .beacon src epoch _ => decide (src < 2 ^ 14) && decide (epoch < 2 ^ 48)
  | .beaconTimer => true
  | .memberLossTime node => decide (node < 2 ^ 14)
  | .heelStart => true
  | .heelDrain src e => decide (src < 2 ^ 14) && decide (e < 2 ^ 48)
  | .memberDrainEnd _ => true
  | .heelDrained src e => decide (src < 2 ^ 14) && decide (e < 2 ^ 48)
  | .heelHold src e _ => decide (src < 2 ^ 14) && decide (e < 2 ^ 48)
  | .memberHoldEnd _ => true
  | .heelHeld src e => decide (src < 2 ^ 14) && decide (e < 2 ^ 48)
  | .heelHoldLimit => true
  | .heelAbort src e => decide (src < 2 ^ 14) && decide (e < 2 ^ 48)
  | .heelCut src e f _ => decide (src < 2 ^ 14) && decide (e < 2 ^ 48) && decide (f < 2 ^ 48)
  | .memberShipEnd => true
  | .heelShipped src e => decide (src < 2 ^ 14) && decide (e < 2 ^ 48)
  | .heelCommit src e => decide (src < 2 ^ 14) && decide (e < 2 ^ 48)
  | .heelRollback src r _ _ => decide (src < 2 ^ 14) && decide (r < 2 ^ 48)
  | .rollbackRestoreEnd => true
  | .heelRolled src seen => decide (src < 2 ^ 14) && decide (seen < 2 ^ 48)
  | .heelResume src f => decide (src < 2 ^ 14) && decide (f < 2 ^ 48)
  | .offer src _ _ _ => decide (src < 2 ^ 14)
  | .handAck src _ _ _ => decide (src < 2 ^ 14)
  | .handoffTimeout _ _ => true
  | .parityDelta h epoch _ _ _ => h.wf && decide (epoch < 2 ^ 48)
  | .rebuildRd h r => h.wf && decide (r < 2 ^ 48)
  | .rebuildData h _ status _ => h.wf && decide (status < 8)
  | .rebuildRangeEnd _ => true
  | .propose src _ => decide (src < 2 ^ 14)
  | .append src term _ _ _ => decide (src < 2 ^ 14) && decide (term < 2 ^ 32)
  | .appendAck src _ term _ => decide (src < 2 ^ 14) && decide (term < 2 ^ 32)
  | .voteReq src term _ _ => decide (src < 2 ^ 14) && decide (term < 2 ^ 32)
  | .vote src term _ => decide (src < 2 ^ 14) && decide (term < 2 ^ 32)
  | .keepHeartbeat src term _ => decide (src < 2 ^ 14) && decide (term < 2 ^ 32)
  | .heartbeatTimer => true
  | .electionTimeout => true
  | .keepCommit src _ epoch _ _ => decide (src < 2 ^ 14) && decide (epoch < 2 ^ 48)
  | .keepFetch src node epoch => decide (src < 2 ^ 14) && decide (node < 2 ^ 14) && decide (epoch < 2 ^ 48)
  | .records src _ => decide (src < 2 ^ 14)
  | .recordsTimeout => true
  | .mapFetchTimer => true
  | .applied src epoch => decide (src < 2 ^ 14) && decide (epoch < 2 ^ 48)
  | .mapEpochApply => true
  | .revocationStart knl => decide (knl < 2048)
  | .revocationDrainEnd knl => decide (knl < 2048)
  | .scrubEnd knl => decide (knl < 2048)
  | .kennelDrain knl => decide (knl < 2048)
  | .flr fn => decide (fn < 513)
  | .functionEnable fn => decide (fn < 513)
  | .functionDisable fn => decide (fn < 513)
  | .quiesce fn => decide (fn < 513)
  | .quiesceDrainEnd fn => decide (fn < 513)
  | .ringBind ring collar lgroup _ => decide (ring < 4096) && decide (collar < 2 ^ 10) && decide (lgroup < 8)
  | .ringEnable ring => decide (ring < 4096)
  | .ringResetRequest ring => decide (ring < 4096)
  | .ringReset ring => decide (ring < 4096)
  | .ringResetDrainEnd ring => decide (ring < 4096)
  | .ringProgressWatchdog ring => decide (ring < 4096)
  | .escalation => true
  | .moduleReset _ _ _ _ => true
  | .resetStepLimit => true
  | .rasResetGo => true
  | .resetPin => true
  | .lineCacheFillEnd _ _ _ => true
  | .flashProgramEnd _ _ => true
  | .dirtyWriteback => true
  | .garbageCollection ch _ => decide (ch < 32)
  | .flashBudgetAccrual => true
  | .leashAccrual => true
  | .leakPeriod _ => true
  | .sysLock => true
  | .windowOpen window value => decide (window < 8192) && decide (value < 2 ^ 64)
  | .faultRingEnable fn value => decide (fn < 513) && decide (value < 2 ^ 64)
  | .tierEnable value => decide (value < 2 ^ 64)
  | .quotaWrite knl _ value => decide (knl < 2048) && decide (value < 2 ^ 64)
  | .leashWrite level _ _ value => decide (level < 4) && decide (value < 2 ^ 64)
  | .rasLkcfgWrite _ value => decide (value < 2 ^ 64)
  | .fenceAndTest _ _ => true
  | .returnResource _ _ => true
  | .selfTestEnd _ => true
  | .domainSwitch dom _ => decide (dom < 113)
  | .domainDrainEnd dom => decide (dom < 113)
  | .orderlyPowerDown => true
  | .powerDownSaveEnd _ => true
  | .fwWrite _ _ => true
  | .fwCommit _ => true
  | .fwAbort => true
  | .updateClaimTimeout => true
  | .svnAdvance target => decide (target < 128)
  | .getCert _ => true
  | .dbgChallenge => true
  | .dbgUnlock _ _ => true
  | .traceEnable bay value => decide (bay < 32) && decide (value < 2 ^ 64)
  | .ptrPdata0 slice => decide (slice < 16)
  | .shpTdata0 => true
  | .rtvRdata0 => true
  | .registerReadClear _ _ width _ => okWidth width
  | .windowWrite _ width value => okWidth width && decide (value < 2 ^ 64)
  | .windowRead _ width => okWidth width
  | .registerWrite _ _ width value _ _ _ => okWidth width && decide (value < 2 ^ 64)
  | .powerOn _ slotid _ _ _ _ => decide (slotid < 64)
  | .startupStepLimit => true
  | .protectiveShutdown _ => true
  | .inputRecovery _ _ _ => true
  | .thermalTrip sensor => decide (sensor < 2 ^ 16)
  | .sensorSample _ => true
  | .powerSample mv ma => decide (mv < 2 ^ 16) && decide (ma < 2 ^ 16)
  | .dutyAdjust => true
  | .lostlock pll => decide (pll < 20)
  | .marginMeasurement _ _ _ => true
  | .alertStatus => true
  | .alertClear mask => decide (mask < 2 ^ 64)
  | .faultRead => true
  | .mapStatus => true
  | .powerdown _ => true
  | .vendorModuleReset _ => true
  | .mapGenesis _ _ => true
  | .mapPropose _ _ => true
  | .vendorDbgChallenge => true
  | .vendorDbgUnlock _ _ => true
  | .getTid => true
  | .setTid tid => decide (tid < 256)
  | .getPldmVersion type => decide (type < 64)
  | .getPldmTypes => true
  | .getPldmCommands type => decide (type < 64)
  | .getPdr _ => true
  | .getPdrRepositoryInfo => true
  | .getSensorReading sensor => decide (sensor < 2 ^ 16)
  | .getStateSensorReadings sensor => decide (sensor < 2 ^ 16)
  | .queryDeviceIdentifiers => true
  | .getFirmwareParameters => true
  | .requestUpdate => true
  | .passComponentTable _ => true
  | .updateComponent _ => true
  | .firmwareData _ _ _ => true
  | .activateFirmware => true
  | .getStatus => true
  | .cancelUpdateComponent => true
  | .cancelUpdate => true
  | .lostAlignment link => decide (link < 96)
  | .framingLock link => decide (link < 96)
  | .cxlLinkUp width _ _ _ => okLanes width
  | .inputRemoval => true
  | .domainSwitchOnEnd dom => decide (dom < 113)
  | .powerDownQuietLimit => true
  | .deviceLost => true
  | .intr h => h.wf
  | .mctpControl cmd _ => decide (cmd < 256)
  | .setaasa => true
  | .entdaa addr => decide (addr < 128)
  | .interfaceReport _ fn => decide (fn < 513)

end Sys2Proof
end

