-- ==== Sys2Proof/Tests/Slice0.lean ====
section
/-! SUPPORT. The author's tests: a refused term for each well-formedness check, the spec's worked examples, and for each
statement concrete states and operands that meet its hypotheses, clause by clause, at boundary values. -/
set_option Elab.async false
namespace Sys2Proof.Tests
open Sys2Proof Sys2Proof.Machine

/-! ### Small states -/

/-- The block with register fields set: field, instance, value. -/
def set (l : List (Fld × Nat × Nat)) (d : Dev := State.reset.dev) : Dev := l.foldl (fun d x => d.wr x.1 x.2.1 x.2.2) d

/-- A state with this block, at a time. -/
def at_ (d : Dev) (tmr : Nat := 0) : State := { State.reset with dev := d, tmr := tmr }

/-- The link up, ring 0 of PF0 bound, ACTIVE, PF0 ENABLED. -/
def ringOn (l : List (Fld × Nat × Nat) := []) : Dev :=
  set ([(F.CXP_LSTAT_UP, 0, 1), (F.RNG_BIND_BOUND, 0, 1), (F.RNG_CTL_STATE, 0, 1), (F.FN_STAT_STATE, 0, 1)] ++ l)

/-- A bay that can be used, and a MOVE of ring 0 in a place. -/
def bayOn (l : List (Fld × Nat × Nat) := []) : Dev :=
  ringOn ([(F.PWR_DCTL_STATE, 0, 1), (F.PWR_DCTL_STATE, 100, 1), (F.SHP_CLSTAT_LOADED, 0, 1)] ++ l)
def jobIn (op : Nat) (p : Place) : Job := { ring := 0, idx := 0, words := [op], place := p }

/-- A block with one job of an opcode, with words 2 to 5. -/
def withJob (l : List (Fld × Nat × Nat)) (op : Nat) (w : List Nat) (p : Place := .waiting) : Dev :=
  { ringOn l with jobs := [{ ring := 0, idx := 0, words := [op, 0] ++ w, place := p }] }

/-- The home of GiB 0, which is bound to function 1: node 7 shares it, window 0 covers it with every right, SPID 3 (PBR ID 9)
reaches it through the port. -/
def home (l : List (Fld × Nat × Nat) := []) : Dev :=
  { set ([(F.KNL_BIND_STATE, 0, 1), (F.KNL_RANGE_SIZE, 0, 1), (F.KNL_BIND_COLLAR, 0, 1), (F.TIR_CTL_EN, 0, 1),
      (F.XLT_WCTL_SIZE, 0, 2 ^ 18), (F.XLT_WCTL_COLLAR, 0, 1), (F.XLT_WCTL_R, 0, 1), (F.XLT_WCTL_W, 0, 1), (F.XLT_WCTL_A, 0, 1),
      (F.XLT_WCTL_ST, 0, 1), (F.CXP_SPID_VALID, 3, 1), (F.CXP_SPID_PBRID, 3, 9), (F.CXP_SPID_COLLAR, 3, 1),
      (F.CXP_LSTAT_UP, 0, 1), (F.CXP_LSTAT_CXL, 0, 1)] ++ l) with
    map := { epoch := 1, modules := [{ node := 0 }, { node := 8 }], fns := [{ fn := 1, nodes := [7], hosts := [9], mcGroup := some 0 }] },
    biEnable := true, cxlMode := 1, hdm := [{ dec := 0, base := 0, size := 2 ^ 30, iw := 0, ig := 0, pos := 0, lock := false, dpa := 0 }] }

/-- The block with one directory entry of a line of function 1. -/
def entered (d : Dev) (line : Nat) (owned : Bool) (p0 : Agent) (p1 : Option Agent := none) : Dev :=
  { d with dir := [((d.sliceOf .s8x4 (line * 64) * 8192 + d.setOf (line * 64)) * 16,
    { line := line, owned := owned, collar := 1, p0 := some p0, p1 := p1 })] }

/-- A field reads its reset value where no listed field starts at its bit. -/
theorem rd_unlisted (d : Dev) (f : Fld) (i : Nat) (h : f.lo < 64) (k : d.regs.all (fun p => p.1 % 64 ≠ f.lo) = true) :
    d.rd f i = f.rst % 2 ^ f.w := by
  have : ∀ t : Tbl Nat, t.all (fun p => p.1 % 64 ≠ f.lo) = true → tget t (f.key i) = none := by
    intro t
    induction t with
    | nil => simp [tget]
    | cons x r ih =>
      intro q
      simp only [List.all_cons, Bool.and_eq_true, decide_eq_true_eq] at q
      have : x.1 ≠ f.key i := by
        intro e
        apply q.1
        rw [e]
        simp only [Fld.key]
        omega
      simp [tget, this, ih q.2]
  simp [Dev.rd, this _ k]

/-- What a home needs for a request to go through, as a check. -/
def freeHome (s : State) (line n : Nat) : Bool :=
  s.dev.hold = 0 && s.dev.held = [] && s.dev.trackers = [] && s.dev.victims = [] && s.dev.fills = [] && s.dev.conflict = [] &&
    s.dev.portHeld = [] && s.dev.rd F.RAS_FLMASK_FLASH = 0 && s.dev.rd F.RAS_FMASK_SLICES = 0 &&
    s.dev.regs.all (fun p => p.1 % 64 ≠ 63) && !s.dev.misses (line / 64) && !s.dev.needsRebuild s.variant (line / 64) &&
    (List.range n).all fun i => (s.dev.ent (line + i)).isNone && !s.dev.poisoned (line + i)

theorem homeFree_of {s : State} {line n : Nat} (h : freeHome s line n = true) : s.homeFree line n := by
  simp only [freeHome, Bool.and_eq_true, decide_eq_true_eq, Bool.not_eq_true', List.all_eq_true (l := List.range n), List.mem_range,
    Option.isNone_iff_eq_none] at h
  obtain ⟨⟨⟨⟨⟨⟨⟨⟨⟨⟨⟨⟨h1, h2⟩, h3⟩, h4⟩, h5⟩, h6⟩, h7⟩, h8⟩, h9⟩, hl⟩, hm⟩, hr⟩, ha⟩ := h
  exact ⟨⟨h1, h2, h3, h4, h5, h6, h7, h8, h9, fun i => ⟨rd_unlisted _ _ i (by decide) hl, rd_unlisted _ _ i (by decide) hl,
    rd_unlisted _ _ i (by decide) hl⟩⟩, ⟨hm, hr⟩, ha⟩

/-- The same by the register, where none of it is listed. -/
theorem rd_unlisted' (d : Dev) (f : Fld) (i : Nat) (h : f.lo < 64) (h' : f.reg < 256)
    (k : d.regs.all (fun p => p.1 / 64 % 256 ≠ f.reg) = true) : d.rd f i = f.rst % 2 ^ f.w := by
  have : ∀ t : Tbl Nat, t.all (fun p => p.1 / 64 % 256 ≠ f.reg) = true → tget t (f.key i) = none := by
    intro t
    induction t with
    | nil => simp [tget]
    | cons x r ih =>
      intro q
      simp only [List.all_cons, Bool.and_eq_true, decide_eq_true_eq] at q
      have : x.1 ≠ f.key i := by
        intro e
        apply q.1
        rw [e]
        simp only [Fld.key]
        omega
      simp [tget, this, ih q.2]
  simp [Dev.rd, this _ k]

/-! ### Rings and descriptors -/

theorem meets_DoorbellsMoveTheirCounts :
    let a := ringOn
    let b := ringOn [(F.RNG_HOLD_HOLD, 0, 2), (F.RNG_CPTR_CTAIL, 0, 5), (F.FN_FRCTL_EN, 0, 1), (F.FN_FRPTR_FTAIL, 0, 3),
      (F.RNG_CTL_PLACE, 0, 1), (F.RNG_DBASE_ADDR, 0, 5 * 2 ^ 38)]
    (∀ x ∈ [a, b, set [(F.RNG_CTL_STATE, 0, 0)] a], x.fnUp 0 = true ∧ x.globalRing 0 0 = some 0 ∧ x.teeOk 0 false = true) ∧
      (set [(F.RNG_CTL_STATE, 0, 0)] a).dbClosed 0 = true ∧ a.dbClosed 0 = false ∧ b.dbClosed 0 = false ∧
      a.rd F.RNG_CTL_PLACE 0 = 0 ∧ sub32 64 (a.rd F.RNG_PTR_FETCH 0) = 2 ^ a.rd F.RNG_CTL_SIZE 0 ∧
      sub32 64 (a.rd F.RNG_PTR_TAIL 0) < 2 ^ 31 ∧ 2 ^ a.rd F.RNG_CTL_SIZE 0 < sub32 65 (a.rd F.RNG_PTR_FETCH 0) ∧
      2 ^ 31 ≤ sub32 (2 ^ 31) (a.rd F.RNG_PTR_TAIL 0) ∧ b.held? 0 1 = true ∧ b.rd F.RNG_HOLD_OUTSTANDING 0 = 0 ∧
      b.rd F.RNG_CTL_CPLACE 0 = 0 ∧ sub32 5 (b.rd F.RNG_CPTR_CHEAD 0) = sub32 (b.rd F.RNG_CPTR_CTAIL 0) (b.rd F.RNG_CPTR_CHEAD 0) ∧
      b.rd F.FN_FRCTL_EN 0 = 1 ∧ b.rd F.FN_STAT_STATE 0 ≠ 2 ∧ b.rd F.FN_FRCTL_PLACE 0 = 0 ∧ b.rd F.FN_FROVF_LOST 0 = 0 ∧
      sub32 3 (b.rd F.FN_FRPTR_FHEAD 0) = sub32 (b.rd F.FN_FRPTR_FTAIL 0) (b.rd F.FN_FRPTR_FHEAD 0) ∧
      b.rd F.RNG_CTL_PLACE 0 = 1 ∧ b.rd F.RNG_DBASE_ADDR 0 * 4096 / 2 ^ 50 = 5 ∧ b.doorbellSource 0 0 0 6 = false := by
  decide +kernel

theorem meets_DescriptorsAreFetchedPlacedAndRun :
    let a := bayOn [(F.RNG_PTR_TAIL, 0, 1)]
    let w : Dev := { bayOn with jobs := [jobIn 1 .waiting] }
    let q : Dev := { bayOn with jobs := [jobIn 1 (.queued 0)] }
    let d : Dev := { bayOn with jobs := [jobIn 1 (.running 0 0)],
                                threads := [(0, { ring := 0, idx := 0, op := 1, collar := 0, words := [1], step := 0, state := 3,
                                                  res := some { status := 0 } })] }
    a.ready 0 = true ∧ a.slotFree 0 = true ∧ a.ringTokens 0 = true ∧ a.grantRing.2 = some 0 ∧
      w.job 0 0 = some (jobIn 1 .waiting) ∧ opBay (opOf (jobIn 1 .waiting).words) = true ∧ w.chooseBay 0 = some 0 ∧
      (w.queueOf 0).length < 32 ∧ ({ ringOn with jobs := [jobIn 1 .waiting] } : Dev).chooseBay 0 = none ∧
      q.thread 0 0 = none ∧ q.usable 0 = true ∧ (q.queueOf 0).head? = some (jobIn 1 (.queued 0)) ∧
      ((d.thread 0 0).map fun t => (t.state, t.accs, t.res, t.discard, t.park)) =
        some (3, [], some { status := 0 }, false, false) := by
  decide +kernel

theorem meets_CompletionsAndInterruptsAreWritten :
    let e : Dev := { ringOn [(F.RNG_HOLD_OUTSTANDING, 0, 1)] with jobs := [jobIn 1 (.ended { status := 0 })] }
    let i : Dev := { ringOn [(F.RNG_IRQ_MAXTIME, 0, 2), (F.RNG_IRQ_EN, 0, 1)] with irqT := [(0, 100)] }
    let m : Dev := { ringOn [(F.FN_VEC_COUNT, 0, 1)] with pba := [0], msixCtl := [(0, 1)] }
    let f := ringOn [(F.FN_FRCTL_EN, 0, 1), (F.FN_FRPTR_FTAIL, 0, 1)]
    e.job 0 0 = some (jobIn 1 (.ended { status := 0 })) ∧ tget e.cplLost 0 = none ∧ e.rd F.RNG_CTL_CPLACE 0 = 0 ∧
      e.ringFn 0 ∉ e.hostDisc ∧ e.rd F.RNG_IRQ_EN 0 = 0 ∧ tget i.irqT 0 = some 100 ∧ i.rd F.RNG_IRQ_EN 0 = 1 ∧
      100 + 100 * i.rd F.RNG_IRQ_MAXTIME 0 = 300 ∧ m.fnUp 0 = true ∧ 0 < m.rd F.FN_VEC_COUNT 0 ∧
      m.bitAt F.FN_IRQF_FABRIC 0 0 = false ∧ bit ((tget m.msixCtl 0).getD 0) 0 = true ∧
      bit ((tget m.msixCtl 0).getD 0) 1 = false ∧ f.rd F.FN_FRCTL_EN 0 = 1 ∧ f.rd F.FN_FRPTR_FTAIL 0 ≠ 0 ∧
      f.sideQ.length < 64 := by
  decide +kernel

/-! ### Translation and control descriptors -/

theorem meets_TranslationsAreWalkedAndInvalidated :
    let k : Walk := { collar := 0, page := 5, demand := true, waiters := [(0, 0)] }
    let a : Dev := { ringOn with walks := [k] }
    let b : Dev := { ringOn with walks := [{ k with started := true, stale := true }] }
    let c : Dev := { ringOn [(F.XLT_WINFLT_COUNT, 8191, 1)] with closing := [(8191, 0, 0)], inval := some ⟨0, 0, 0⟩ }
    let r := withJob [] 0x38 [0, 4096, 1]
    let f := withJob [] 0x38 [1]
    let g := withJob [(F.RNG_BIND_COLLAR, 0, 1)] 0x38 [1]
    let x := withJob [(F.XLT_WCTL_ST, 3, 1)] 0x38 [2, 0, 0, 3]
    a.bitAt F.RAS_FMASK_WALKERS 0 (a.walkGroup k) = false ∧
      (({ a with walkTurn := tset a.walkTurn (a.walkGroup k) k.strm } : Dev).lookupShr 0 (5 * 4096)).2 = none ∧
      (b.walks.find? fun y => y.isOf 0 5 && y.started) = some { k with started := true, stale := true } ∧
      (r.invalStart 0 0 0).map (·.2) = some false ∧ r.comb = [] ∧ (f.invalStart 0 0 1).map (·.2) = some false ∧
      (g.invalStart 0 0 1).map (·.2) = some true ∧ (x.invalStart 0 0 2).map (·.2) = some false ∧
      (c.closing.find? fun y => y.1 = 8191) = some (8191, 0, 0) ∧ c.rd F.XLT_WINFLT_COUNT 8191 ≠ 0 ∧ c.dir = [] ∧
      c.inval = some ⟨0, 0, 0⟩ ∧ c.oldCount = 0 := by
  decide +kernel

theorem meets_ControlDescriptorsActAtTheRingManager :
    let a := withJob [(F.RNG_BIND_COLLAR, 0, 1), (F.EPC_CFG_HEELFN, 0, 2)] 0x30 [0]
    let b := withJob [(F.EPC_EPOCH_EPOCH, 0, 5), (F.EPC_STAT_LEADER, 0, 1)] 0x30 [4]
    let c := withJob [(F.EPC_EPOCH_EPOCH, 0, 5), (F.EPC_STAT_LEADER, 0, 1)] 0x30 [5]
    let d := withJob [] 0x30 [0]
    let f := withJob [] 0x31 [1]
    let g := withJob [] 0x31 [1] .control
    (∀ x ∈ [a, b, c, d], (x.waitingJob 0 0 0x30).isSome = true) ∧ a.ringFn 0 ≠ 0 ∧ a.ringFn 0 ≠ a.rd F.EPC_CFG_HEELFN ∧
      b.ringFn 0 = 0 ∧ (4 : Nat) < b.rd F.EPC_EPOCH_EPOCH ∧ d.inGroup = false ∧ c.inGroup = true ∧ c.heelLead = none ∧
      c.rd F.EPC_STAT_LEADER = 1 ∧ (f.waitingJob 0 0 0x31).isSome = true ∧ (0 : Nat) ∈ f.fenceRings (jobIn 0x31 .waiting) ∧
      (g.job 0 0).isSome = true ∧ (∀ j ∈ g.jobs, g.fenceDone j = true) ∧
      ((withJob [] 0x32 [0]).waitingJob 0 0 0x32).isSome = true := by
  decide +kernel

theorem meets_ResponsesReachTheirAccess :
    let x : Access := { id := 7, grp := 0, step := 4, kind := 0, strm := 0, tva := 0, len := 64, waiting := false, dst := 256 }
    let t : Thread := { ring := 0, idx := 0, op := 1, collar := 0, words := [1], step := 4, accs := [x] }
    let d (st : Nat) : Dev := { ringOn with threads := [(0, t)],
                                            answers := [{ bay := 0, thr := 0, acc := 7, status := st, data := [1] }] }
    (∀ n ∈ [0, 3], ((d n).takeAnswer 0 0 7).map (·.2.status) = some n) ∧ (d 0).thread 0 0 = some t ∧
      (t.accs.find? fun y => y.id = 7) = some x ∧ kindOf x.dst = 1 ∧ idxOf x.dst = 0 ∧ x.at_ + x.len ≤ 2048 ∧
      t.latch = none := by
  decide +kernel

/-! ### Fabric and host requests -/

/-- A request of node 7 through window 0. -/
def req (off : Nat) : Hdr := { src := 7, tag := 1, off := off }

theorem meets_FabricReadsAnswerWithTheLinesAndTheGrant :
    let s := at_ home
    let u := at_ (entered home 5 false (.node 7))
    (s.dev.ingress (req 0) needRead false false).2 = some ⟨0, 1, 0, some 0⟩ ∧
      (s.dev.ingress (req (2 ^ 30 - 64)) needRead false false).2 = some ⟨2 ^ 30 - 64, 1, 0, some 0⟩ ∧
      s.homeFree 0 (linesIn 0 4) ∧ s.homeFree (2 ^ 24 - 1) (linesIn (2 ^ 30 - 64) 4) ∧
      (s.dev.ingress (req 0) needRead false true).2 = some ⟨0, 1, 0, some 0⟩ ∧ s.homeFree 0 1 ∧ s.dev.wayFree s.variant 0 ∧
      (s.dev.ingress (req 0) ⟨true, true, false⟩ false true).2 = some ⟨0, 1, 0, some 0⟩ ∧
      (u.dev.ingress (req 320) ⟨true, true, false⟩ false true).2 = some ⟨320, 1, 0, some 0⟩ ∧ u.homeIdle ∧ u.pageReady 5 ∧
      u.dev.poisoned 5 = false ∧
      (u.dev.ent 5).map (fun x => (x.2.line, x.2.owned, x.2.ovf, x.2.ptrs)) = some (5, false, false, [.node 7]) :=
  ⟨by decide +kernel, by decide +kernel, homeFree_of (by decide +kernel), homeFree_of (by decide +kernel), by decide +kernel,
    homeFree_of (by decide +kernel), ⟨0, by decide, by decide +kernel⟩, by decide +kernel, by decide +kernel,
    (homeFree_of (line := 0) (n := 0) (by decide +kernel)).1, ⟨by decide +kernel, by decide +kernel⟩, by decide +kernel,
    by decide +kernel⟩

theorem meets_FabricWritesStoreExactlyTheirBytes :
    let s := at_ home
    let o := at_ (entered home 5 true (.node 7))
    s.dev.inGroup = false ∧ o.dev.inGroup = false ∧ (s.dev.ingress (req 0) needWrite false false).2 = some ⟨0, 1, 0, some 0⟩ ∧
      s.homeFree 0 (linesIn 0 4) ∧ s.homeFree 0 1 ∧ o.dev.hold = 0 ∧
      (o.dev.resolve (req 320) ⟨false, false, false⟩ true).2 = some (320, 1, some 0) ∧ o.dev.owns (.node 7) 5 = true ∧
      (o.dev.ingress (req 320) ⟨false, false, false⟩ true false).2 = some ⟨320, 1, 0, some 0⟩ ∧
      (s.dev.resolve (req 320) ⟨false, false, false⟩ true).2 = some (320, 1, some 0) ∧ s.dev.owns (.node 7) 5 = false ∧
      (s.dev.ingress (req 320) ⟨false, false, false⟩ false false).2 = some ⟨320, 1, 0, some 0⟩ :=
  ⟨by decide +kernel, by decide +kernel, by decide +kernel, homeFree_of (by decide +kernel), homeFree_of (by decide +kernel),
    by decide +kernel, by decide +kernel, by decide +kernel, by decide +kernel, by decide +kernel, by decide +kernel,
    by decide +kernel⟩

theorem meets_FabricAtomicsAreDoneAtTheHome :
    let s := at_ home
    s.dev.inGroup = false ∧ (∀ f ∈ [true, false], (s.dev.ingress (req 60) (needAtomic f) false false).2 = some ⟨60, 1, 0, some 0⟩) ∧
      s.homeFree 0 1 ∧ aopValid 0 0 false = true ∧ 60 % (etyBytes 0).getD 4 = 0 ∧ aopValid 0 0 true = true ∧
      aopValid 63 0 false = false ∧ (s.dev.ingress (req 256) (needAtomic false) false false).2 = some ⟨256, 1, 0, some 0⟩ ∧
      s.homeFree 4 4 :=
  ⟨by decide +kernel, by decide +kernel, homeFree_of (by decide +kernel), by decide +kernel, by decide +kernel, by decide +kernel,
    by decide +kernel, by decide +kernel, homeFree_of (by decide +kernel)⟩

theorem meets_HostRequestsActAsR85Says :
    let s := at_ home
    s.dev.hostReady = true ∧ (s.dev.hostCheck 9 64).2 = some ⟨3, ⟨64, 1, 0, none⟩⟩ ∧ s.homeFree 1 1 ∧
      s.dev.wayFree s.variant 1 ∧ s.dev.inGroup = false ∧ (s.dev.hostCheck 10 64).2 = none ∧ (s.dev.hostCheck 9 (2 ^ 30)).2 = none :=
  ⟨by decide +kernel, by decide +kernel, homeFree_of (by decide +kernel), ⟨0, by decide, by decide +kernel⟩, by decide +kernel,
    by decide +kernel, by decide +kernel⟩

theorem meets_PortEventsFollowR420AndR437 :
    let a : Dev := { set [(F.PWR_DCTL_STATE, 109, 1)] with pwrgd := true, perst := false }
    let b := set [(F.CXP_LSTAT_UP, 0, 1), (F.CXP_LSTAT_IDE_CM, 0, 1), (F.CXP_LSTAT_IDE_IO, 0, 8)]
    let v : Dev := { set [(F.CXP_LSTAT_UP, 0, 1), (F.FN_STAT_STATE, 512, 1)] with vfEnable := true, numVfs := 512 }
    let w : Dev := { set [(F.CXP_LSTAT_UP, 0, 1)] with vfEnable := true }
    a.pwrgd = true ∧ a.perst = false ∧ a.domState 109 = 1 ∧ a.lostFor = 0 ∧ a.rd F.CXP_LSTAT_UP = 0 ∧ a.resetTr = none ∧
      b.rd F.CXP_LSTAT_UP = 1 ∧ (∀ r ∈ b.running, r.tr.prio ≠ 1) ∧ b.rd F.CXP_LSTAT_IDE_CM = 1 ∧
      b.instances F.CXP_SPID_VALID = [] ∧ b.instances F.SEC_TDI_STATE = [] ∧ (∀ f, b.rd F.FN_STAT_STATE f = 0) ∧
      b.rd F.CXP_LSTAT_DOWNS < 2 ^ F.CXP_LSTAT_DOWNS.w - 1 ∧ bit (b.rd F.CXP_LSTAT_IDE_IO) 3 = true ∧
      v.fnUp 512 = true ∧ v.rd F.FN_STAT_STATE 512 = 1 ∧ v.tdiLocked 512 = false ∧ v.quiescing 512 = false ∧
      w.pf0Up = true ∧ w.vfEnable = true ∧ ∀ f, w.rd F.FN_STAT_STATE f ≠ 1 :=
  ⟨by decide +kernel, by decide +kernel, by decide +kernel, by decide +kernel, by decide +kernel, by decide +kernel,
    by decide +kernel, by decide +kernel, by decide +kernel, by decide +kernel, by decide +kernel,
    fun f => rd_unlisted' _ _ f (by decide) (by decide) (by decide +kernel), by decide +kernel, by decide +kernel,
    by decide +kernel, by decide +kernel, by decide +kernel, by decide +kernel, by decide +kernel, by decide +kernel,
    fun f => by rw [rd_unlisted' _ F.FN_STAT_STATE f (by decide) (by decide) (by decide +kernel)]; decide⟩

theorem meets_CciMailboxCommandsAnswer :
    let e : DcEvent := { handle := 1, kind := 0, stamp := 0, ext := { knl := 0, region := 0, collar := 1, epoch := 1, base := 0, size := 1 } }
    let d : Dev := { set [(F.CXP_LSTAT_UP, 0, 1)] with dcLog := [e] }
    d.rd F.CXP_LSTAT_UP = 1 ∧ (d.dcLog.take 1).map (fun e => e.handle) = [1] ∧ 0xFFFF ∉ mbxOpcodes := by
  decide +kernel

theorem meets_DynamicCapacityCommandsFollowR431 :
    let a := home
    let b : Dev := { home with hdm := [] }
    a.rd F.CXP_LSTAT_UP = 1 ∧ b.biEnable = true ∧ (∀ h ∈ b.hdm, h.dec ≠ 7) ∧ 2 ^ 32 % (2 ^ 28 * 2 ^ 4) = 0 ∧
      (∀ h ∈ a.hdm, h.dec ≠ 7) ∧ (∃ h ∈ a.hdm, h.dec = 0) := by
  decide +kernel


/-! ### Responses and snoops -/

/-- A header of node 7 for line 5. -/
def ans5 : Hdr := { src := 7, tag := 1, off := 320 }

/-- A request of bay 0, thread 0, and the thread with its access. -/
def asked (purpose : Purpose) (more : List Req := []) : Dev :=
  let a : Access := { id := 0, grp := 0, step := 4, kind := 0, strm := 0, tva := 0, len := 64, waiting := false }
  { set [] with
    reqs := { tag := 1, dst := 7, mtype := 1, addr := 320, link := none, since := 0, purpose := purpose } :: more,
    threads := [(0, { ring := 0, idx := 0, op := 1, collar := 1, words := [], step := 4, accs := [a] })] }

/-- A transaction on line 5 that waits for two answers. -/
def txn5 (a : Agent) (kind : Nat) : Txn :=
  { line := 5, collar := 1, want := .shared, src := .fabric 6 2 320 0, snoops := [⟨a, 5, kind⟩, ⟨.node 8, 5, 0⟩] }
def snooped (d : Dev) (a : Agent) (kind : Nat) : Dev := { entered d 5 true a (some (.node 8)) with trackers := [txn5 a kind] }

theorem meets_ResponsesEndTheirRequests :
    let p := asked .posted
    let a := asked (.access 0 0 0)
    let q : Req := { tag := 2, dst := 7, mtype := 1, addr := 0, link := none, since := 0, purpose := .access 0 0 0 }
    let b := asked (.access 0 0 0) [q]
    (set []).reqOf 7 1 = none ∧ (p.reqOf 7 1).map (fun r => r.purpose) = some .posted ∧
      (a.reqOf 7 1).map (fun r => r.purpose) = some (.access 0 0 0) ∧
      ((a.thread 0 0).bind fun u => u.accs.find? fun x => x.id = 0).isSome = true ∧ ((a.thread 0 0).map fun u => u.latch) = some none ∧
      (∀ r ∈ a.reqs, ∀ x ∈ a.reqs, x ≠ r → x.purpose ≠ r.purpose) ∧ (b.reqOf 7 1).isSome = true ∧ q.purpose = .access 0 0 0 ∧
      ∀ r ∈ p.reqs ++ a.reqs, r.since + a.fabricMs * 100000 ≤ (at_ a (2 ^ 40)).tmr := by
  decide +kernel

theorem meets_SnoopAnswersChangeTheEntry :
    (∀ k ∈ [0, 1, 3], let d := snooped home (.node 7) k
      d.trackers = [txn5 (.node 7) k] ∧ (d.ent 5).isSome = true ∧
        (d.ent 5).map (fun p => tget d.dir p.1) = (d.ent 5).map (fun p => some p.2) ∧ d.inGroup = false ∧ d.hold ≠ 2 ∧
        d.revokedOff 320 = false ∧ (⟨.node 8, 5, 0⟩ : Snoop) ≠ ⟨.node 7, 5, k⟩) ∧
      ansLine ans5 = 5 ∧ (txn5 (.node 7) 3).src.agent = some (.node 6) ∧ { snooped home (.node 7) 1 with hold := 2 }.hold = 2 ∧
      home.spidOf 9 = some 3 ∧ ((snooped home (.spid 3) 1).ent 5).isSome = true ∧ home.trackers = [] ∧ home.victims = [] := by
  decide +kernel

theorem meets_UnansweredSnoopsAndWaitingRequests :
    let w : Txn := { line := 5, collar := 1, want := .once, src := .fabric 7 2 320 0 }
    home.lateSnoop (at_ home).cx (.node 7) 5 = none ∧ home.lateSnoop (at_ home).cx (.spid 3) 5 = none ∧
      (∀ k ∈ [0, 1], let s := at_ (snooped home (.node 7) k) (2 ^ 40)
        s.dev.trackers = [txn5 (.node 7) k] ∧ (txn5 (.node 7) k).since + s.dev.fabricMs * 100000 ≤ s.tmr ∧
        (s.dev.ent 5).isSome = true ∧ s.dev.hold ≠ 2 ∧ s.dev.inGroup = false) ∧
      ((at_ (snooped home (.spid 3) 1) (2 ^ 40)).dev.lateSnoop { (at_ home).cx with tmr := 2 ^ 40 } (.spid 3) 5).isSome = true ∧
      home.conflict = [] ∧ w.covers 5 = true ∧
      { snooped home (.node 7) 0 with conflict := [w] }.busyTxn w = true ∧ { home with conflict := [w] }.busyTxn w = false ∧
      home.chFenced .s8x4 5 = false ∧ home.trackersOf .s8x4 (home.sliceOf .s8x4 320) < 1024 := by
  decide +kernel


/-! ### Links -/

/-- Link 0 of node 1, cable J10 present, in a state, with what it keeps. -/
def link0 (st : Nat) (l : LinkSt := {}) (more : List (Fld × Nat × Nat) := []) (tmr : Nat := 0) : State :=
  at_ { set ([(F.LNK_CTL_EN, 0, 1), (F.LNK_STAT_STATE, 0, st), (F.MAP_NODE_NODE, 0, 1), (F.MAP_NODE_VALID, 0, 1),
    (F.MAPR_RMASK1_VALID, 5, 1), (F.MAPR_RMASK0_LINKS_LO, 5, 1)] ++ more) with cables := [0], lnk := [(0, l)] } tmr

theorem meets_LinksTrainAndAgreeOnKeys :
    let k := link0 3 { step := 5, peerNodev := true, partsDone := [1, 2], parts := [(1, []), (2, [])] }
    (link0 1).dev.mayTrain (link0 1).cx 0 = true ∧ (link0 4).dev.mayTrain (link0 4).cx 0 = false ∧
      (link0 2 { step := 2 }).dev.lstate 0 = 2 ∧ ((link0 2 { step := 2 }).dev.lk 0).step = 2 ∧
      (link0 2 { step := 4 }).dev.lstate 0 = 2 ∧ ((link0 2 { step := 4 }).dev.lk 0).step = 4 ∧
      k.dev.lstate 0 = 3 ∧ k.dev.keyWaits 0 = false ∧ (k.dev.lk 0).partsDone = [1, 2] ∧
      ((tget (k.dev.lk 0).parts 3).getD []).length = 12 * 0 ∧ k.dev.rd F.SEC_DBG_STATE = 0 ∧
      ((tget (k.dev.lk 0).parts 1).getD []).getD 81 0 = 0 ∧
      (∀ tmr ∈ [100000, stepLimit 5], let s := link0 3 { step := 5, peerNodev := true } [] tmr
        (s.dev.lk 0).step = 5 ∧ s.dev.lstate 0 = 3 ∧ s.dev.keyWaits 0 = false) ∧
      100000 < stepLimit 5 := by
  decide +kernel

theorem meets_LinksLeaveUp :
    let l : LinkSt := { retiring := true, lasting := true, replay := [{ seq := 1 }] }
    (link0 4).dev.lstate 0 = 4 ∧ ((link0 4).dev.lk 0).txq = [] ∧ 0 < (link0 4).variant.links / 8 ∧ 0 / 8 = 0 ∧
      { ringOn with lnk := [] }.pf0Up = true ∧ (link0 4 {} [(F.CXP_LSTAT_UP, 0, 1)]).dev.pf0Up = true ∧
      ((link0 4 l).dev.lk 0).retiring = true ∧ ((link0 4 l).dev.lk 0).quiet = false ∧ ((link0 4 l).dev.lk 0).replay ≠ [] ∧
      l.since + 100000 ≤ (link0 4 l [] 100000).tmr := by
  decide +kernel

/-- A CMP for node 5, as a message. -/
def cmp5 : Msg := { mtype := 0x30, dst := 5, src := 1, tag := 3 }

theorem meets_FlitsAreAcceptedRetriedAndPaidFor :
    let u := link0 4 { rxLast := 1023, txSeq := 1023, replay := [{ seq := 1023 }], cred := List.replicate 8 10, txq := [cmp5] }
    let r := link0 4 { retry := some (8, 0) } [] 200
    let k := link0 4 { sw := some 1024 } [(F.LNK_STAT_SECURE, 0, 1), (F.LNK_TXCTR_CTR, 0, 960)]
    u.dev.lstate 0 = 4 ∧ ((u.dev.lk 0).rxLast + 1) % 1024 = 0 ∧ (u.dev.lk 0).retry = none ∧ (u.dev.lk 0).replay.length < 510 ∧
      (u.dev.lk 0).sw = none ∧ (r.dev.lk 0).retry = some (8, 0) ∧ 0 + 200 ≤ r.tmr ∧ (r.dev.lk 0).lastRetrain = none ∧
      (u.dev.lk 0).txq = [cmp5] ∧ msgSlots cmp5 ≤ (u.dev.lk 0).cred.getD (vcOf cmp5.mtype) 0 ∧ msgSlots cmp5 ≤ 15 ∧
      vcOf cmp5.mtype = 1 ∧ ((link0 4).dev.lk 0).txq = [] ∧ ((link0 4).dev.lk 0).owed = [] ∧
      k.dev.rd F.LNK_STAT_SECURE 0 = 1 ∧ (k.dev.lk 0).sw = some 1024 ∧ (k.dev.lk 0).swReady = false ∧
      1024 ≤ k.dev.rd F.LNK_TXCTR_CTR 0 + 64 ∧ k.dev.rd F.LNK_TXCTR_CTR 0 + 63 < 1024 ∧
      (link0 4 {} [(F.LNK_STAT_SECURE, 0, 1)]).dev.rd F.LNK_STAT_SECURE 0 = 1 := by
  decide +kernel

theorem meets_MessagesAreSwitchedOnwards :
    let s := link0 4
    s.dev.lstate 0 = 4 ∧ mtypeKnown 0x2A = false ∧ mtypeKnown cmp5.mtype = true ∧ cmp5.grp = false ∧
      cmp5.dst ≠ s.dev.rd F.MAP_NODE_NODE ∧ s.dev.eligible 5 = [0] ∧
      (link0 4 {} [(F.LNK_STAT_STATE, 1, 4), (F.MAPR_RMASK0_LINKS_LO, 5, 2)]).dev.eligible 5 = [1] ∧
      chooseLink [1] cmp5.off 5 1 = some 1 ∧ s.dev.eligible 6 = [] ∧ s.dev.rd F.MAP_NODE_NODE = 1 ∧
      s.dev.rd F.MAPM_RMASK1_VALID 3 = 0 := by
  decide +kernel


/-! ### Steps -/

/-- A thread of bay 0 at step 16. -/
def thr0 : Thread := { ring := 0, idx := 0, op := 1, collar := 1, words := [1], step := 16 }

/-- Thread 0 of bay 0 as given, about to run a step of a unit and op in slot 16: at slot 17 next when c is 1, else at 18. -/
def stepOf (unit op : Nat) (t : Thread := thr0) (dst srca srcb imm : Nat := 0) (more : Nat := 0) : State :=
  at_ { set [] with
    steps := [(32, unit + 16 * op + 2 ^ 16 * dst + 2 ^ 28 * srca + 2 ^ 40 * srcb), (33, imm + more + 2 ^ 32 * 17 + 2 ^ 46 * 18)],
    threads := [(0, t)] }

/-- S[i] holds v; stream 0 is sequential, of n 4-byte elements, or indexed, of n rows of 64 bytes. -/
def withS (l : List (Nat × Nat)) : Thread := { thr0 with sreg := l }
def seqT (n : Nat) (bag : Nat := 0) : Thread := { thr0 with strms := [(0, { indexed := false, base := 4096, len := 4 * n, lg := 2, bag := bag })] }
def idxT (n : Nat) (l : List (Nat × Nat) := []) : Thread :=
  { thr0 with
    strms := [(0, { indexed := true, base := 4096, len := n, stride := 64 })]
    sreg := l }

theorem meets_ScalarStepsWriteTheirResult :
    (∀ op ∈ List.range 10, (stepOf 0 op (withS [(1, 5), (2, 7)]) 512 513 514).atStep 0 0 0 op (withS [(1, 5), (2, 7)])) := by
  simp only [State.atStep]
  decide +kernel

theorem meets_StepsSelectTheirSuccessor :
    let t : Thread := { thr0 with sel := true }
    let u : Thread := { t with unk := 16 }
    (stepOf 0 0 t).dev.thread 0 0 = some t ∧ t.sel = true ∧ t.state ≠ 3 ∧ t.wait = 0 ∧
      bit t.unk ((stepOf 0 0 t).dev.stepAt 16).csel = false ∧
      (stepOf 0 0 u 0 0 0 0 (4 * 2 ^ 24)).dev.thread 0 0 = some u ∧
      bit u.unk ((stepOf 0 0 u 0 0 0 0 (4 * 2 ^ 24)).dev.stepAt 16).csel = true := by
  decide +kernel

/-- A block whose root for collar 1 is enabled, with the translation of TVA page 0 to store offset 0 cached in bay 0. -/
def rooted (d : Dev) : Dev :=
  { set [(F.FN_XLT_ROOT_EN, 1, 1)] d with
    bayTlb := [(1, [{ collar := 1, s := 12, p := 0, out := 2 ^ 49, r := true, w := true, a := true }])] }

/-- An LDSHADOW of row 0 of a tensor, of which a shadow of one row of 2 bytes is current. -/
def shadT : Thread := { idxT 1 with words := [1, 0, 64], start := 1 }
def shadowed : State :=
  at_ { rooted (stepOf 1 3 shadT 256 768 512).dev with
    tens := [(0, { shadow := true, collar := 1, hdr := 64, rows := 1, rowlen := 2, sfmt := 3, made := 1, data := [1, 2, 3, 4] })] }

theorem meets_LoadStepsIssueTheirAccess :
    (stepOf 1 0 (seqT 512) 256 768).atStep 0 0 1 0 (seqT 512) ∧ min (thr0.active ((stepOf 1 0).dev.stepAt 16)) 512 ≠ 0 ∧
      (seqT 512).inside 256 2048 = true ∧ (stepOf 1 0 (seqT 0) 256 768).atStep 0 0 1 0 (seqT 0) ∧
      (stepOf 1 1 (idxT 1) 256 768 512).atStep 0 0 1 1 (idxT 1) ∧
      (idxT 1).val ((stepOf 1 1 (idxT 1) 256 768 512).dev.stepAt 16) 512 < 1 ∧
      (stepOf 1 1 (idxT 1 [(0, 1)]) 256 768 512).atStep 0 0 1 1 (idxT 1 [(0, 1)]) ∧
      1 ≤ (idxT 1 [(0, 1)]).val ((stepOf 1 1 (idxT 1 [(0, 1)]) 256 768 512).dev.stepAt 16) 512 ∧
      (stepOf 1 2 (seqT 1 1) 512 768).atStep 0 0 1 2 (seqT 1 1) ∧ (stepOf 1 2 (seqT 1 0) 512 768).atStep 0 0 1 2 (seqT 1 0) ∧
      (stepOf 1 3 (idxT 1) 256 768 512).atStep 0 0 1 3 (idxT 1) ∧
      (let s := stepOf 1 3 (idxT 1) 256 768 512
       let r := (shadowOf { (s.dev.whoOf s.cx 0 0 (idxT 1)) with deadline := none } 0 0).run { d := s.dev, env := [] }
       r.2.busy = false ∧ r.1 = none) ∧
      (let s := shadowed
       let r := (shadowOf { (s.dev.whoOf s.cx 0 0 shadT) with deadline := none } 64 1).run { d := s.dev, env := [] }
       s.dev.thread 0 0 = some shadT ∧ r.2.busy = false ∧ r.1.map (fun e => (e.rows, e.rowlen, e.sfmt)) = some (1, 2, 3)) ∧
      shadT.val (shadowed.dev.stepAt 16) 512 < 1 ∧ shadT.inside 256 2 = true := by
  repeat' apply And.intro
  all_goals decide +kernel

/-- An atomic of a 4-byte element: IMM with FETCH. -/
def atomImm : Nat := 128

theorem meets_StoreAndAtomicStepsIssueTheirAccess :
    (∀ op ∈ [0, 2], (stepOf 2 op (seqT 512) 768 256 257).atStep 0 0 2 op (seqT 512)) ∧ (seqT 512).inside 256 2048 = true ∧
      (stepOf 2 1 (idxT 1) 768 256 512).atStep 0 0 2 1 (idxT 1) ∧
      (idxT 1).val ((stepOf 2 1 (idxT 1) 768 256 512).dev.stepAt 16) 512 < 1 ∧
      (stepOf 2 1 (idxT 1 [(9, 524288)]) 768 (6 * 256 + 9) 512).atStep 0 0 2 1 (idxT 1 [(9, 524288)]) ∧
      (idxT 1 [(9, 524288)]).inside (6 * 256 + 9) 64 = false ∧
      (stepOf 2 1 (idxT 1 [(0, 1)]) 768 256 512).atStep 0 0 2 1 (idxT 1 [(0, 1)]) ∧
      (stepOf 3 0 (seqT 1) 513 768 514 atomImm).atStep 0 0 3 0 (seqT 1) ∧ aopValid 0 0 false = true ∧ 4096 % 4 = 0 ∧
      (stepOf 3 0 (seqT 1) 513 768 514 15).atStep 0 0 3 0 (seqT 1) ∧ aopValid 15 0 false = false ∧
      (stepOf 0xA 0 (seqT 16) (6 * 256) 768 0 1).atStep 0 0 0xA 0 (seqT 16) ∧ (seqT 16).inside (6 * 256) 64 = true ∧
      (stepOf 0xA 0 (seqT 16) 768 (6 * 256) 0 1).atStep 0 0 0xA 0 (seqT 16) ∧
      (stepOf 0xA 0 thr0 (7 * 256) (6 * 256) 0 1).atStep 0 0 0xA 0 thr0 ∧
      (64 ≤ Config.pinnedBytes → thr0.inside (7 * 256) 64 = true) := by
  repeat' apply And.intro
  all_goals try simp only [State.atStep]
  all_goals first | decide +kernel | (intro h; simp [Thread.inside, kindOf, bits, Thread.addr, idxOf, thr0, tget]; omega)

theorem meets_AccessStepsThatIssueNothingReportTheirFlag :
    let a : Access := { id := 0, grp := 0, step := 16, kind := 0, strm := 0, tva := 2 ^ 20, len := 64 }
    let s := at_ (rooted (stepOf 1 0 { thr0 with accs := [a] }).dev)
    (stepOf 1 0).dev.thread 0 0 = some thr0 ∧ thr0.state ≠ 3 ∧ thr0.accs = [] ∧ 4 ∈ accessFlags ∧
      (s.dev.thread 0 0).map (fun t => t.accs.find? (·.id = 0)) = some (some a) ∧ s.dev.rootFault 1 (2 ^ 20) = none ∧
      probe s.dev.bayTlb (fun x => baySet 0 1 x (2 ^ 20)) 1 (2 ^ 20) = none ∧
      probe s.dev.shrTlb (fun x => shrSet 1 x (2 ^ 20)) 1 (2 ^ 20) = none := by
  decide +kernel


/-! ### Lanes, the codec and the bay's own tables -/

/-- A thread with LREG 0 holding one lane; the step has LEN_EN 1 and FMT fmt: V[1] op V[2] into V[0]. -/
def oneLane : Thread := { thr0 with sreg := [(0, 1)] }
def laneStep (unit op fmt : Nat) (dst : Nat := 256) (srca : Nat := 257) (srcb : Nat := 258) (v : List (Nat × Byte) := []) : State :=
  let s := stepOf unit (op + 2 ^ 8 * fmt) oneLane dst srca (srcb + 2 ^ 17)
  s.withDev { s.dev with vregs := v }

theorem meets_LaneStepsComputeEveryActiveLane :
    (∀ op ∈ List.range 9, ∀ fmt ∈ List.range 5, (laneStep 4 op fmt).atStep 0 0 4 op oneLane) ∧
      (∀ fmt ∈ List.range 5, laneBits fmt ≠ 0) ∧ kindOf 256 = 1 ∧ oneLane.inside 257 4 = true ∧
      oneLane.active ((laneStep 4 0 0).dev.stepAt 16) = 1 ∧ oneLane.inside 258 2 = true := by
  repeat' apply And.intro
  all_goals try simp only [State.atStep]
  all_goals decide +kernel

theorem meets_CodecStepsConvertEveryElement :
    (∀ op ∈ List.range 2, ∀ fmt ∈ List.range 5, (laneStep 5 op fmt).atStep 0 0 5 op oneLane ∧
      ((laneStep 5 op fmt).dev.stepAt 16).fmt < 5) ∧ kindOf 256 = 1 ∧ oneLane.inside 257 4 = true := by
  repeat' apply And.intro
  all_goals try simp only [State.atStep]
  all_goals decide +kernel

/-- A thread with stream 0 of sixteen 4-byte elements at TVA 0. -/
def accT : Thread := { thr0 with strms := [(0, { indexed := false, base := 0, len := 64, lg := 2 })] }

/-- The TVA of its ACC step, translated. -/
def accAt (s : State) : Option Nat × Run :=
  (addrOf (s.dev.whoOf s.cx 0 0 accT) 0 (needAtomic false)).run { d := s.dev, env := [] }

theorem meets_BayUnitStepsFollowTheirTables :
    (∀ p ∈ [(6, 0), (6, 1), (8, 0), (8, 1), (9, 0), (9, 1), (9, 2), (9, 3), (7, 1)],
      (stepOf p.1 p.2 (withS [(1, 5), (2, 7)]) 512 513 514).atStep 0 0 p.1 p.2 (withS [(1, 5), (2, 7)])) ∧
      ({ row := 5, m := 1, w := 0 } : CoalEnt).row = (withS [(1, 5)]).val ((stepOf 6 0 thr0 512 513 514).dev.stepAt 16) 513 ∧
      (withS []).inside 512 2048 = true ∧ (stepOf 7 1).dev.comb = [] ∧
      (let s := at_ (rooted (stepOf 7 0 accT 768 257).dev)
       s.atStep 0 0 7 0 accT ∧ accT.inside 257 64 = true ∧ (reduceAop 0 0).isSome = true ∧
        (accAt s).1 = some (2 ^ 49) ∧ (accAt s).2.busy = false ∧ (accAt s).2.stop = none ∧ (tget (accAt s).2.d.comb 0).getD [] = [] ∧
        kindOf 0 = 0 ∧ 0 + max 1 (64 / 4) ≤ 64 / 4) := by
  repeat' apply And.intro
  all_goals try simp only [State.atStep]
  all_goals decide +kernel


/-! ### Streams, ends of runs, descriptors -/

/-- A thread with nothing outstanding, or with one load. -/
def owing : Thread := { thr0 with accs := [{ id := 0, grp := 0, step := 15, kind := 0, strm := 0, tva := 0, len := 4, fetch := true }] }

theorem meets_StreamsWaitsAndEndsOfRuns :
    (∀ op ∈ List.range 4, (stepOf 0xB op (seqT 4) 769 513 514).atStep 0 0 0xB op (seqT 4)) ∧
      (stepOf 0xC 0).atStep 0 0 0xC 0 thr0 ∧ thr0.owes 0 = false ∧ (stepOf 0xC 0 owing 0 0 0 1).atStep 0 0 0xC 0 owing ∧
      owing.owes 1 = true ∧ thr0.accs = [] ∧ thr0.res = none ∧ thr0.park = false ∧ thr0.discard = false ∧
      (∀ op ∈ List.range 3, (stepOf 0xD op).atStep 0 0 0xD op thr0) ∧ thr0.latch = none ∧ { thr0 with op := 0x13 }.op = 0x13 ∧
      (let t : Thread := { thr0 with latch := some { status := 0x10, type := 0, engine := 10, step := 16 } }
       ∀ op ∈ List.range 3, (stepOf 0xD op t).atStep 0 0 0xD op t) := by
  repeat' apply And.intro
  all_goals try simp only [State.atStep]
  all_goals decide +kernel

/-- A thread that runs a descriptor of an opcode with these words. -/
def descT (op : Nat) (words : List Nat) : Thread := { thr0 with op := op, words := words }
def descS (op : Nat) (words : List Nat) : State := stepOf 0 0 (descT op words)

/-- What a descriptor's work leaves: busy, stopped, and whether the thread is as before. -/
def ran (p : Who → Thread → RM Res) (op : Nat) (words : List Nat) : Bool × Bool × Bool :=
  let s := descS op words
  let r := ((p (s.dev.whoOf s.cx 0 0 (descT op words)) (descT op words)).run { d := s.dev, env := [] }).2
  (r.busy, r.stop.isSome, decide (r.d.thread 0 0 = some (descT op words)))

theorem meets_DescriptorsRunWholeAndHandOver :
    ran moveTensor 1 [1, 0, 64, 64, 0, 0] = (false, true, true) ∧ ran moveTensor 1 [1, 0, 1, 64, 0, 0] = (false, false, true) ∧
      ran moveRaw 1 [1, 0, 0, 0, 1, 64] = (false, false, true) ∧ ran moveGather 1 [1, 0, 0, 1, 2, 0] = (false, false, true) ∧
      (∀ p ∈ [(noShadow compress, 2), (noShadow expand, 2), (convert, 3), (mcastStore, 8), (reduceRemote, 9), (gatherPool, 0x10),
        (scatterAdd 0, 0x11), (scatterAdd 1, 0x11), (scatterAdd 2, 0x11), (shardProbe, 0x12), (search, 0x18), (insertNode, 0x19),
        (deleteNode, 0x1A), (mergeIndex, 0x1B), (promote, 0x20), (demote, 0x21), (shadowBuild, 0x22), (shadowDrop, 0x22)],
        (ran p.1 p.2 [p.2, 0, 64, 64, 64, 64, 64, 64]).1 = false ∧ (ran p.1 p.2 [p.2, 0, 64, 64, 64, 64, 64, 64]).2.2 = true) ∧
      (descS 1 [1]).dev.thread 0 0 = some (descT 1 [1]) ∧ (descT 1 [1]).accs = [] ∧ 1 % 64 ≠ 0 ∧ 0 < 0 + 64 := by
  repeat' apply And.intro
  all_goals decide +kernel

/-- A store whose line 1 holds the header of an FP32 tensor of four rows of sixteen elements at 256, and a thread of bay 0. -/
def tensored (t : Thread) (h : Bool := true) : Dev :=
  let w := if h then THdr.words { tva := 64, layout := 0, fmt := 0, valid := true, qmode := 0, qblk := 0, rowlen := 16, blocks := 1, rows := 4, present := 1, data := 256, map := 0, scale := 0, dcap := 0, clean := true } else []
  rooted { home with
    mem := memPut [] 64 (wordBytes w)
    steps := (stepOf 0 0 t).dev.steps
    threads := [(0, t)] }

theorem meets_RowMigrationsParkOrTakeBack :
    let w : List Nat := [0x13, 0, 64, 64, 64, 0, 0, 64]
    let t : Thread := { descT 0x13 w with side := some (0, 1, 0, 0) }
    let go := fun (m : Nat) (s : State) => (rowMigrate m (s.dev.whoOf s.cx 0 0 t) t).run { d := s.dev, env := [] }
    let s := at_ (tensored t) 100
    let r := (readWord { (s.dev.whoOf s.cx 0 0 t) with deadline := none } 0).run { d := s.dev, env := [] }
    (∀ m ∈ [0, 1, 2], (ran (rowMigrate m) 0x13 w).1 = false ∧ (ran (rowMigrate m) 0x13 w).2.1 = true ∧
      (go m s).2.busy = false ∧ (go m s).2.stop = none ∧ (go m s).1.status = 0 ∧ (go m s).2.d.thread 0 0 = some t ∧
      (go m (at_ (tensored t false))).2.stop = none ∧ (go m (at_ (tensored t false))).1.status = 0x10) ∧
      r.2.busy = false ∧ r.2.stop = none ∧ r.1 = 0 ∧ 0 + 100 ≤ s.tmr ∧
      s.tmr < 0 + 100 * max 1 (s.dev.rd F.TRK_CFG_SIDE_WAIT) ∧ 99 < 0 + 100 := by
  repeat' apply And.intro
  all_goals decide +kernel


/-! ### Heels, rollbacks, packs -/

/-- Node 1 of a heel group of nodes 1 and 2 in epoch 5, led by node 2, or by itself. -/
def grouped (l : List (Fld × Nat × Nat) := []) : Dev :=
  { set ([(F.MAP_NODE_NODE, 0, 1), (F.MAP_NODE_VALID, 0, 1), (F.EPC_EPOCH_EPOCH, 0, 5), (F.EPC_STAT_LEADER_NODE, 0, 2)] ++ l) with
    map := { epoch := 1, modules := [{ node := 1 }, { node := 2 }] }
    grpNodes := [1, 2]
    synced := true }
def inHeel (k : Nat) (d : Dev := grouped) : Dev := { d with running := [⟨.heel, 0⟩], heelStep := k, heelHold := true }

theorem meets_MembersRunTheStepsOfAHeel :
    (grouped.inGroup = true ∧ grouped.heelStep = 0 ∧ grouped.running = [] ∧ grouped.rd F.EPC_EPOCH_EPOCH = 5 ∧
      (grouped.want .heel).canStart .heel = true) ∧
      (let d : Dev := { grouped with running := [⟨.moduleReset 1, 0⟩] }
       (d.want .heel).canStart .heel = false ∧ ∀ r ∈ d.running, r.tr ≠ .heel) ∧
      (∀ k ∈ [1, 2, 3, 4], (inHeel k).runs .heel = true ∧ (inHeel k).heelStep = k ∧ (inHeel k).jobs = [] ∧ (inHeel k).comb = [] ∧
        (inHeel k).trackers = [] ∧ (inHeel k).conflict = [] ∧ (inHeel k).fills = [] ∧ (inHeel k).held = [] ∧
        (inHeel k).dir = []) ∧
      (inHeel 4 { grouped with regs := [] }).inGroup = false ∧
      (let d : Dev := { grouped with heelStep := 5, shipE := some 5 }
       d.shipE = some 5 ∧ d.reqs = [] ∧ d.undo = [] ∧ d.groupDue = false) ∧ grouped.shipE ≠ some 5 := by
  decide +kernel

theorem meets_TheLeaderRunsAHeelStepByStep :
    let lead : Dev := { grouped [(F.EPC_STAT_LEADER, 0, 1)] with heelAsked := true }
    (lead.rd F.EPC_STAT_LEADER = 1 ∧ lead.heelAsked = true ∧ lead.heelLead = none ∧ lead.shipE = none ∧ lead.rollLead = none ∧
      lead.rd F.EPC_EPOCH_WAIT = 0 ∧ lead.rebOut = [] ∧ grouped.heelAsked = false) ∧
      (∀ k ∈ [1, 2, 3], let h : HeelLead := { e := 5, step := k, got := [1] }
        (∀ n ∈ { grouped with heelLead := some h }.present, n = 2 ∨ n ∈ h.got) ∧
        ¬∀ n ∈ { grouped with heelLead := some h }.present, n = 1 ∨ n ∈ h.got) ∧
      0 + grouped.holdLimit ≤ 2 ^ 30 ∧ 0 < 0 + grouped.holdLimit ∧ 2 ∈ grouped.grpNodes ∧ grouped.inGroup = true ∧
      99999 < grouped.beatAt + 100000 ∧ grouped.beatAt + 100000 ≤ 100000 ∧ grouped.lostFor = 0 ∧
      grouped.rd F.RAS_STAT_MSTATE ≠ 1 ∧ grouped.rd F.EPC_STAT_LEADER = 0 ∧
      tget { grouped with beats := [(2, 0)] }.beats 2 = some 0 ∧ 2 ∈ lead.present ∧ 2 ≠ lead.rd F.MAP_NODE_NODE ∧
      (tget lead.beats 2).getD 0 + lead.lossMs * 100000 ≤ 2 ^ 40 ∧ 0 < (tget lead.beats 2).getD 0 + lead.lossMs * 100000 := by
  decide +kernel

theorem meets_RollbacksRestoreTheLastHeel :
    let u : Undo := { page := 3, epoch := 5, pre := [(7, 9)] }
    let d : Dev := { grouped with undo := [u] }
    let w := grouped [(F.EPC_EPOCH_WAIT, 0, 1)]
    let l : RollLead := { cause := 2, got := [(1, 5)] }
    let h : Handed := { kind := 1, object := 4, gen := 2, dst := 2, since := 0 }
    (d.inGroup = true ∧ d.running = [] ∧ (d.want (.rollback 2)).canStart (.rollback 2) = true ∧ d.shipE = none ∧
      (∀ v ∈ d.undo, v.page = u.page → v = u) ∧ u.lost = false ∧ u.scrubbed = false ∧ Memory.wf u.pre = true) ∧
      (set []).inGroup = false ∧ w.rd F.EPC_EPOCH_WAIT = 1 ∧ w.victims = [] ∧ w.running = [] ∧ w.groupDue = false ∧ w.held = [] ∧
      (∃ n ∈ grouped.present, tget (tset l.got 1 6) n = none) ∧ (∀ n ∈ grouped.present, tget (tset l.got 2 6) n ≠ none) ∧
      (tget grouped.gens (handKey 1 (4 % 2 ^ 32))).getD 0 < 2 ∧ 0 ≤ (tget grouped.gens (handKey 1 (4 % 2 ^ 32))).getD 0 ∧
      ({ grouped with handing := [h] }.handing.find? fun (h : Handed) => h.kind = 1 && h.object = 4) = some h ∧
      h.since + 1000000 ≤ 1000000 ∧ ∃ m ∈ grouped.map.modules, m.node = h.dst := by
  decide +kernel

/-- Position 0 of a pack of two data positions and two parity positions, of nodes 1 to 4, whose own copy is being rebuilt. -/
def packed (l : List (Fld × Nat × Nat) := []) : Dev :=
  grouped ([(F.PAK_CFG_VALID, 0, 1), (F.PAK_CFG_K, 0, 2), (F.PAK_CFG_POS, 0, 0)] ++
    (List.range 4).flatMap (fun p => [(F.PAK_MEMB_PV, p, 1), (F.PAK_MEMB_NODE, p, p + 1)]) ++ l)

theorem meets_ParityAndRebuildFollowTheCode :
    let h : Hdr := { src := 2, tag := 1, off := 320 }
    let r : Req := { tag := 1, dst := 2, mtype := 0x41, addr := 320, link := none, since := 0, purpose := .rebuild }
    let q : Dev := { packed [(F.PAK_RBLD_ACTIVE, 0, 1)] with reqs := [r], rebMine := some 2 }
    packed.packMember 9 = false ∧ packed.packMember 2 = true ∧ packed.parityGiB 0 = true ∧ packed.parityGiB 3 = true ∧
      packed.parityGiB 2 = false ∧ packed.needsRebuild .s8x4 0 = false ∧
      ({ packed with undo := [{ page := 0, epoch := 5 }] }.capture (at_ packed).cx 0 5 true).2 = true ∧
      (q.reqs.find? fun (r : Req) => r.tag = h.tag && r.dst = h.src && r.purpose = .rebuild) = some r ∧
      ((List.range 16).find? fun p => q.rd F.PAK_MEMB_PV p = 1 && q.rd F.PAK_MEMB_NODE p = h.src) = some 1 ∧
      (q.sources (1 / 16 / 262144) (q.rd F.PAK_CFG_POS)).getD [] ≠ [] ∧ tget q.rebGot (1 / 16 * 16 + 0) = none ∧
      packed.rebMine = none ∧ q.rebMine = some 2 ∧ q.rd F.PAK_RBLD_ACTIVE ≠ 0 ∧
      (q.sources 2 (q.rd F.PAK_CFG_POS)).isSome = true ∧ q.fills = [] ∧
      planIndex q.packN (q.rd F.PAK_CFG_POS) Variant.s8x4.storeGiB 2 + 1 < Variant.s8x4.storeGiB := by
  decide +kernel


/-! ### Functions and rings -/

theorem meets_FunctionsEnableQuiesceAndDisable :
    let a : Dev := { ringOn [(F.FN_STAT_STATE, 512, 1)] with wanted := [.quiesce 512] }
    let z := set [(F.CXP_LSTAT_UP, 0, 1), (F.FN_VEC_COUNT, 0, 1)]
    let q : Dev := { set [(F.FN_STAT_STATE, 512, 2)] with running := [⟨.quiesce 512, 0⟩] }
    let p : Dev := { set [(F.FN_STAT_STATE, 0, 2), (F.FN_STAT_PENDING_ENABLE, 0, 1), (F.FN_VEC_COUNT, 0, 1)] with running := [⟨.quiesce 0, 0⟩] }
    ringOn.pf0Up = true ∧ ringOn.tdiLocked 0 = false ∧ ringOn.quiescing 0 = false ∧ ringOn.rd F.FN_STAT_STATE 0 = 1 ∧
      z.pf0Up = true ∧ z.rd F.FN_STAT_STATE 0 = 0 ∧ z.enableErr 0 = 0 ∧ z.enableErr 512 ≠ 0 ∧ a.canStart (.quiesce 512) = true ∧
      a.jobs = [] ∧ q.runs (.quiesce 512) = true ∧ q.jobs = [] ∧ q.rd F.FN_STAT_PENDING_ENABLE 512 = 0 ∧
      p.runs (.quiesce 0) = true ∧ p.rd F.FN_STAT_PENDING_ENABLE 0 = 1 ∧ (p.quiesceState 0).enableErr 0 = 0 := by
  decide +kernel

/-- Ring 0 bound to PF0, its sizes allowed and its bases 0. -/
def ringable (l : List (Fld × Nat × Nat) := []) : Dev :=
  set ([(F.CXP_LSTAT_UP, 0, 1), (F.RNG_BIND_BOUND, 0, 1), (F.FN_VEC_COUNT, 0, 1), (F.RNG_CTL_SIZE, 0, 6), (F.RNG_CTL_CSIZE, 0, 16)] ++ l)

theorem meets_RingsBindEnableAndReset :
    let f := ringable [(F.RNG_CTL_PLACE, 0, 1)]
    let w : Dev := { ringOn with wanted := [.ringReset 0] }
    let g : Dev := { ringOn [(F.RNG_CTL_STATE, 0, 3)] with running := [⟨.ringReset 0, 0⟩] }
    let j : Dev := withJob [] 1 [] .control
    (ringable.pf0Up = true ∧ ringable.tdiLocked (ringable.ringFn 0) = false ∧ (∀ i < 8, ringable.rd F.RNG_CTL_STATE (4088 + i) = 0) ∧
      ((ringable.instances F.RNG_BIND_BOUND).any fun g => g ≠ 4088 && ringable.rd F.RNG_BIND_BOUND g = 1 &&
        ringable.rd F.RNG_BIND_COLLAR g = 512 && ringable.rd F.RNG_BIND_LGROUP g = 7) = false) ∧
      ringable.rd F.RNG_CTL_STATE 0 = 0 ∧ ringable.ringErr 0 = 0 ∧ (ringable [(F.RNG_CTL_SIZE, 0, 5)]).ringErr 0 ≠ 0 ∧
      (6 ≤ f.rd F.RNG_CTL_SIZE 0 ∧ f.rd F.RNG_CTL_CSIZE 0 ≤ 16 ∧ ringFits true 0 (64 * 2 ^ 6) = true ∧
        ringFits false 0 (32 * 2 ^ 16) = true ∧ f.rd F.RNG_CTL_PLACE 0 = 1 ∧
        f.rd F.RNG_DBASE_ADDR 0 * 4096 / 2 ^ 50 = f.rd F.MAP_NODE_NODE) ∧
      ringOn.rd F.RNG_CTL_STATE 0 = 1 ∧ w.canStart (.ringReset 0) = true ∧ w.rd F.RNG_CTL_STATE 0 ≠ 0 ∧ w.jobs = [] ∧
      g.runs (.ringReset 0) = true ∧ g.jobs = [] ∧ (j.watched 0).isEmpty = false ∧
      (tget j.lastCpl 0).getD 0 + 100000 * j.rd F.RAS_CFG_RINGWD ≤ 100000 * j.rd F.RAS_CFG_RINGWD ∧ j.rd F.RNG_CTL_STATE 0 = 1 ∧
      .ringReset 0 ∉ j.wanted := by
  decide +kernel


/-! ### Power -/

/-- A powered block at a phase of start-up. -/
def on (phase : Nat) (l : List (Fld × Nat × Nat) := []) : Dev :=
  set ([(F.PWR_DCTL_STATE, 112, 1), (F.CXP_LSTAT_UP, 0, 1), (F.PWR_SEQ_PHASE, 0, phase)] ++ l)

theorem meets_StartupRunsInTheOrderOfR546 :
    State.reset.dev.aon = false ∧ (on 2).aon = true ∧ { on 2 with upStep := 4 }.upStep = 4 ∧ (on 5).offStep = 0 ∧
      (on 5).save = none ∧ (on 5).stored = none ∧ 0 < 112 ∧ domPresent .s4x2 0 = true ∧ 0 < Variant.s4x2.links := by
  decide +kernel

theorem meets_StopsSwitchEveryDomainOff :
    (on 2).aon = true ∧ { on 2 with upStep := 4 }.rtp ≠ 2 ∧
      (0 + { on 2 with upStep := 4 }.upLimit .s8x4 < 2 ^ 40) ∧ (on 6).rd F.PWR_SEQ_PHASE < 8 ∧ sensorPresent .s8x4 35 = true ∧
      (on 9 [(F.PWR_SEQ_OFFCAUSE, 0, 3)]).rd F.PWR_SEQ_PHASE = 9 ∧ (on 9 [(F.PWR_SEQ_OFFCAUSE, 0, 3)]).rd F.PWR_SEQ_OFFCAUSE = 3 ∧
      (on 6).rd F.PWR_SEQ_PHASE ≠ 9 := by
  decide +kernel

theorem meets_OrderlyPowerDownSavesAndStops :
    (on 5).pf0Up = true ∧ (on 5).offStep = 0 ∧ (on 5).resetTr = none ∧ (on 5).wanted = [] ∧ 5 ≤ (on 5).rd F.PWR_SEQ_PHASE ∧
      (on 6).rd F.PWR_SEQ_PHASE < 7 ∧ (on 4).rd F.PWR_SEQ_PHASE < 5 ∧ { on 7 with offStep := 2 }.offStep = 2 ∧
      (on 7).homeQuiet = true ∧ (on 7).dir = [] := by
  decide +kernel

theorem meets_SamplesActOnTheDutyAsR537AndR540Say :
    (on 6).aon = true ∧ sensorPresent .s8x4 0 = true ∧ throttlePoint 0 = some 1600 ∧ 1600 ≤ toSigned 16 (1600 % 65536) ∧
      bit ((on 6 [(F.CLK_STAT_LOCK, 0, 2 ^ 19)]).rd F.CLK_STAT_LOCK) 19 = true ∧ { on 6 with pwrgd := true }.pwrgd = true ∧
      (on 6 [(F.RAS_MCFG_PERIOD, 0, 1)]).rd F.RAS_MCFG_PERIOD ≠ 0 ∧ 95 < Variant.s8x4.links := by
  decide +kernel

/-! ### The root of trust -/

def secOn (l : List (Fld × Nat × Nat) := []) : Dev := { on 6 l with rtp := 1 }
/-- A debug token of level 1 for nonce 5 and the module's identity certificate, here empty. -/
def token : Bytes := 1 :: leBytes 32 5 ++ sha384 [] ++ List.replicate 96 0

theorem meets_FirmwareUpdateMailboxCommandsAct :
    let d := secOn
    d.rd F.CXP_LSTAT_UP = 1 ∧ d.rtp = 1 ∧ d.claimed 0 = false ∧ 4096 * 8191 + 4096 ≤ 2 ^ 25 ∧ 8191 < 2 ^ 32 ∧
      (List.replicate 4096 (0 : Byte)).length ≤ 4096 ∧ { d with claim := some (1, 0) }.claimed 0 = true ∧
      { d with claim := some (0, 7) }.claim = some (0, 7) := by
  decide +kernel

theorem meets_DebugUnlockFollowsR529 :
    let d : Dev := { secOn with dbgNonce := some 5 }
    let e : Dev := { d with regs := [] }
    d.rd F.CXP_LSTAT_UP = 1 ∧ d.rtp = 1 ∧ (d.cert 1).length ≤ 4096 ∧ d.tokenOk token true = true ∧ d.tokenOk token false = false ∧
      token.length ≤ 4096 ∧ d.aon = true ∧ e.tokenOk token true = true ∧ e.rd F.CXP_LSTAT_UP = 0 ∧
      ∀ i < Variant.s8x4.links, e.rd F.LNK_STAT_SECURE i = 0 := by
  decide +kernel


/-- The root of trust in service with connections at level n, k sessions on DOE and one of them established. -/
def spdmOn (n k : Nat) (est : Bool := true) (l : List (Fld × Nat × Nat) := []) : Dev :=
  { secOn l with
    spdmConn := [n, n]
    sessions := (List.range k).map fun i => { id := i, via := 0, est := est, rx := 2 ^ 32 - 2 } }

theorem meets_SpdmRequestsOutsideSessionsAnswer :
    (spdmOn 3 0).spdmUp 0 = true ∧ (spdmOn 3 0).spdmUp 1 = true ∧ 1 ≤ (spdmOn 1 0).spdmConn.getD 0 0 ∧
      2 ≤ (spdmOn 2 0).spdmConn.getD 1 0 ∧ 3 ≤ (spdmOn 3 0).spdmConn.getD 0 0 ∧ (spdmOn 3 0).rd F.SEC_DBG_KEYS_GONE = 0 ∧
      ((spdmOn 3 3).sessions.filter (·.via = 0)).length < 4 ∧ 4 ≤ ((spdmOn 3 4).sessions.filter (·.via = 0)).length := by
  decide +kernel

theorem meets_SessionMessagesActOnTheirSession :
    (∀ est ∈ [true, false], (spdmOn 3 1 est).sessions.find? (fun y => y.id = 0) = some { id := 0, via := 0, est := est, rx := 2 ^ 32 - 2 } ∧
      (spdmOn 3 1 est).spdmUp 0 = true ∧ 2 ^ 32 - 2 + 1 < 2 ^ 32) ∧ 2 ∈ ideSubs 0 ∧ 0 ∈ ideSubs 4 ∧
      (∀ b ∈ ideSubs 4, (4 * 16 + 1 * 8 + 1 * 4 + b) ∈ { spdmOn 3 1 with ideKeys := [76] }.ideKeys) := by
  decide +kernel

/-- VF 512, ENABLED, with IDE stream 3 secure, its TDI in a state. -/
def tdiOn (st : Nat) (l : List (Fld × Nat × Nat) := []) : Dev :=
  { spdmOn 3 1 true ([(F.FN_STAT_STATE, 512, 1), (F.CXP_LSTAT_IDE_IO, 0, 8), (F.SEC_TDI_STATE, 512, st)] ++ l) with tdiNonce := [(512, 9)] }

theorem meets_TdispLocksStartsAndStopsAnInterface :
    (∀ st ∈ [0, 1, 2], ((tdiOn st).sessions.find? (fun y => y.id = 0)).map (fun y => (y.via, y.est)) = some (0, true) ∧
      (tdiOn st).spdmUp 0 = true ∧ (tdiOn st).rd F.SEC_TDI_STATE 512 = st) ∧ (tdiOn 0).lockable 512 3 = true ∧
      tget (tdiOn 1).tdiNonce 512 = some 9 ∧ (tdiOn 2).rd F.FN_STAT_STATE 512 = 1 ∧ (tdiOn 2).quiescing 512 = false ∧
      (tdiOn 2 [(F.FN_STAT_STATE, 512, 0)]).rd F.FN_STAT_STATE 512 ≠ 1 ∧ (tdiOn 2 [(F.FN_STAT_STATE, 512, 0)]).quiescing 512 = false ∧
      (tdiOn 1).tdiLocked 512 = true := by
  decide +kernel

/-! ### The sideband -/

theorem meets_SidebandCommandsAnswer :
    (on 6).aon = true ∧ (on 6).rtp ≠ 2 ∧ (on 6 [(F.SYS_STRAP_SLOTID, 0, 61)]).rd F.SYS_STRAP_SLOTID ≤ 61 ∧
      62 ≤ (on 6 [(F.SYS_STRAP_SLOTID, 0, 62)]).rd F.SYS_STRAP_SLOTID ∧ (on 6).i3cAddr = none ∧ 127 < 128 := by
  decide +kernel

/-- An established MCTP session with number 0 of a module in service at node 1, which knows a lead keeper. -/
def mctpOn (l : List (Fld × Nat × Nat) := []) : Dev :=
  { on 6 ([(F.MAP_NODE_NODE, 0, 1), (F.MAP_NODE_VALID, 0, 1)] ++ l) with
    rtp := 1
    sessions := [{ id := 0, via := 1, est := true, rx := 2 ^ 32 - 2, tx := 2 ^ 32 - 2 }]
    kp := { lead := some 2 } }

theorem meets_SidebandSessionCommandsActInTheirSession :
    let recs : List MapRecs := [{ epoch := 1, node := 1, keepers := [1, 2, 3] }]
    mctpOn.aon = true ∧ mctpOn.rtp = 1 ∧ (mctpOn.sessions.find? (fun y => y.id = 0)).map (fun y => (y.via, y.est)) = some (1, true) ∧
      mctpOn.offStep = 0 ∧ mctpOn.resetTr = none ∧ mctpOn.wanted = [] ∧ mctpOn.running = [] ∧ mctpOn.lostFor = 0 ∧
      mctpOn.upStep = 0 ∧ mctpOn.rd F.PWR_SEQ_PHASE < 7 ∧ 5 ≤ mctpOn.rd F.PWR_SEQ_PHASE ∧
      (mctpOn.resetTimes.filter fun t => 0 < t + 360000000000).length < max 1 (mctpOn.rd F.RAS_CFG_MAXRST) ∧
      mctpOn.genesisOk recs = true ∧ mctpOn.rd F.MAP_KLOG_COMMITTED = 0 ∧ mctpOn.rd F.MAP_NODE_VALID = 1 ∧
      mctpOn.kp.lead = some 2 := by
  decide +kernel

theorem meets_PldmMonitoringCommandsAnswer :
    (on 6).aon = true ∧ (on 6).rtp ≠ 2 ∧ (pldmSensors .s8x4)[(pldmSensors .s8x4).length - 1]? = some 0x301 ∧
      1 ∈ pldmSensors .s8x4 ∧ (on 6).sensorValue 1 = some 0 := by
  decide +kernel

theorem meets_FirmwareUpdateOverPldmAdvancesItsClaim :
    let u := fun (n : Nat) => { secOn with claim := some (1, 0), pldm := { st := n, size := 2 } }
    secOn.aon = true ∧ secOn.rtp = 1 ∧ secOn.claim = none ∧ secOn.pldm.st ≤ 3 ∧ (∀ n ∈ [1, 2, 3, 4], (u n).updSt = n) ∧
      (u 3).pldm.got + 1 < (u 3).pldm.size ∧ 2 ^ 25 ≤ 2 ^ 25 := by
  decide +kernel


/-! ### Keepers, the map, tiers -/

/-- Keeper node 1 of keepers 1 to 3 in term 2, whose log holds two entries of term 1, one committed; the lead or not. -/
def keeping (lead : Nat) (f : Keep → Keep := id) (l : List (Fld × Nat × Nat) := []) : Dev :=
  { set ([(F.MAP_NODE_NODE, 0, 1), (F.MAP_NODE_VALID, 0, 1), (F.MAP_KEEP_KEEPER, 0, 1), (F.MAP_KEEP_LEAD, 0, lead),
      (F.MAP_KEEP_TERM, 0, 2), (F.MAP_KLOG_COMMITTED, 0, 1)] ++ l) with
    kp := f { log := [⟨1, .remove 8⟩, ⟨1, .remove 9⟩], kmap := [{ node := 1, keepers := [1, 2, 3] }], lead := some 2 } }

theorem meets_KeepersReplicateTheLog :
    let b := keeping 0
    let a := keeping 1
    let o := { set [(F.MAP_NODE_NODE, 0, 1), (F.MAP_NODE_VALID, 0, 1)] with map := { keepers := [2, 3] }, kp := { asked := some 2 } }
    b.keeps = true ∧ b.leads = false ∧ a.leads = true ∧ a.acceptable 2 (.lost 4) = true ∧ b.kp.lead = some 2 ∧
      2 ≠ b.rd F.MAP_NODE_NODE ∧ (b.rd F.MAP_KLOG_COMMITTED < 2 ∧ 3 ≤ b.kp.log.length + 1 ∧ b.kp.log.length + 1 < 4) ∧
      1 < b.rd F.MAP_KEEP_TERM ∧ b.termAt 1 ≠ 7 ∧ 2 ∈ a.otherKeepers ∧ a.kp.log[2 - 2]? = some ⟨1, .remove 8⟩ ∧
      b.kp.voted = none ∧ (keeping 0 fun k => { k with voted := some 3 }).kp.voted = some 3 ∧ b.termAt b.kp.log.length < 2 ∧
      b.rd F.MAP_KEEP_LEAD = 0 ∧ (keeping 0 fun k => { k with cand := true }).kp.cand = true ∧ 2 ≤ b.kset.length ∧
      a.kp.sent + 500000 ≤ 500000 ∧ b.kp.heard + 5000000 ≤ 5000000 ∧ b.kp.kmap ≠ [] ∧ o.keeps = false ∧
      o.rd F.MAP_NODE_VALID = 1 ∧ o.rd F.MAP_KEEP_KEEPER = 0 ∧ o.lostFor = 0 ∧ o.nextMap = none ∧ o.rd F.MAP_EPOCH_EPOCH < 1 ∧
      o.kp.asked = some 2 ∧ o.fetchOrder = 2 :: 3 :: [] ∧ o.kp.askedAt + 1000000 ≤ 1000000 ∧ o.kp.fetched + 100000000 ≤ 100000000 := by
  decide +kernel

/-- Node 1 with an epoch to apply, which lists one kennel, and kennel 0 of GiB 0, bound or being revoked. -/
def mapped (st phase : Nat) (kennels : List KnlRec := []) (l : List (Fld × Nat × Nat) := []) : Dev :=
  { set ([(F.MAP_NODE_NODE, 0, 1), (F.MAP_NODE_VALID, 0, 1), (F.KNL_BIND_STATE, 0, st), (F.KNL_BIND_PHASE, 0, phase),
      (F.KNL_RANGE_SIZE, 0, if st = 0 then 0 else 1)] ++ l) with
    nextMap := some { epoch := 1, node := 1, modules := [{ node := 1 }], kennels := kennels }
    wanted := [.mapApply]
    revAt := [(0, 0)] }

theorem meets_MapEpochsBindAndRevokeKennels :
    let k : KnlRec := { base := 0, size := 1, collar := 512 }
    let a := mapped 0 0 [k]
    let v : Dev := { mapped 1 0 with wanted := [.revoke 0] }
    let r : Dev := { mapped 2 0 [] [(F.KNL_INFLT_COUNT, 0, 1)] with wanted := [] }
    (set []).nextMap = none ∧ a.canStart .mapApply = true ∧ ({ a with wanted := [] }.runs .mapApply = false) ∧
      { a with wanted := [] }.canStart .mapApply = false ∧ a.rd F.MAP_EPOCH_EPOCH < 1 ∧
      1 ≤ (mapped 0 0 [k] [(F.MAP_EPOCH_EPOCH, 0, 1)]).rd F.MAP_EPOCH_EPOCH ∧
      a.mapCause .s8x4 { epoch := 1, node := 2 } ≠ 0 ∧ (a.nextMap.map (a.mapCause .s8x4)) = some 0 ∧ a.kennelIs 1 k = none ∧
      a.rd F.KNL_BIND_STATE 0 = 0 ∧ v.canStart (.revoke 0) = true ∧ v.rd F.KNL_BIND_STATE 0 = 1 ∧ a.canStart (.revoke 0) = false ∧
      (mapped 2 0).rd F.KNL_BIND_STATE 0 = 2 ∧ (mapped 2 0).rd F.KNL_INFLT_COUNT 0 = 0 ∧ (mapped 2 0).dir = [] ∧
      (mapped 2 1).rd F.KNL_BIND_PHASE 0 = 1 ∧ (mapped 2 1).hold < 2 ∧
      ((mapped 2 1).scrubUndos (at_ (mapped 2 1)).cx ((mapped 2 1).scrubPages 0)).2 = true ∧
      tget r.revAt 0 = some 0 ∧ r.rd F.KNL_INFLT_COUNT 0 ≠ 0 ∧ 0 + 50000000 ≤ 50000000 ∧ r.lostFor = 0 ∧
      r.rd F.PWR_SEQ_PHASE < 7 ∧ r.upStep = 0 ∧ r.running = [] ∧ r.wanted = [] := by
  decide +kernel

/-- A block with a fill of page 5, a program of unit 1 and a dirty frame, out of 16 GiB of line cache. -/
def tiered : Dev :=
  { set [] with
    fills := [{ page := 5 }]
    progs := [{ unit := 1, slot := 7, comp := false, data := [] }]
    lc := [{ page := 32, dirty := true }]
    mem := [(131072, 1)] }

theorem meets_TiersAndBudgetsKeepTheirCounts :
    tiered.fills.find? (fun (x : Fill) => x.page = 5 && !x.reb) = some { page := 5 } ∧ tiered.bitAt F.RAS_FLMASK_FLASH 0 (tiered.channelOf .s8x4 20480) = false ∧
      (tiered.progs.find? (fun (x : Prog) => x.unit = 1)).map (fun p => p.slot) = some 7 ∧
      (tiered.lc.find? fun w => w.dirty && !tiered.progs.any fun p => p.unit = w.page / 16) = some { page := 32, dirty := true } ∧
      tiered.presentBlocks 2 ≠ [] ∧ (set []).portHeld = [] ∧ (set []).threads = [] ∧
      ((set [(F.LSHF_RATE_RATE, 3, 5), (F.TIR_KFRATE_RATE, 2, 1)]).instances F.LSHF_RATE_RATE).Nodup ∧
      100 * 0 ≤ tiered.dirtyHi * tiered.lcTotal .s8x4 ∧
      (set [(F.TIR_REGION_LC, 0, 0)]).dirtyHi * (set [(F.TIR_REGION_LC, 0, 0)]).lcTotal .s8x4 < 100 * 1 ∧
      tiered.rd F.FLS_SPACE_FREE 0 * 100 < rawSlots * 4 ∧ 31 < Variant.s8x4.channels ∧
      tget { tiered with stale := [(31, [7])] }.stale 31 = some [7] := by
  decide +kernel


/-! ### Fencing, domains, resets, registers, the machine -/

/-- Bays 0 and 1 usable, slices and links powered. -/
def served (l : List (Fld × Nat × Nat) := []) : Dev :=
  set ([(F.CXP_LSTAT_UP, 0, 1), (F.PWR_DCTL_STATE, 0, 1), (F.PWR_DCTL_STATE, 1, 1), (F.PWR_DCTL_STATE, 100, 1),
    (F.PWR_DCTL_REQ, 0, 1), (F.SHP_CLSTAT_LOADED, 0, 1), (F.PWR_DCTL_STATE, 95, 1), (F.PWR_DCTL_REQ, 95, 1)] ++ l)

theorem meets_ResourcesAreFencedAndSwitched :
    let b := served [(F.RAS_FENCE_BUSY, 0, 1)]
    (served.pf0Up = true ∧ b.rd F.RAS_FENCE_BUSY = 1 ∧ served.rd F.RAS_FENCE_BUSY = 0) ∧ fencePresent .s8x4 4 0 = false ∧
      (∀ p ∈ [(0, 31), (1, 95), (2, 31), (3, 15)], fencePresent .s8x4 p.1 p.2 = true ∧ served.fenceRefused p.1 p.2 = false) ∧
      (served [(F.LNK_STAT_STATE, 95, 4)]).lstate 95 = 4 ∧ (served [(F.LNK_STAT_STATE, 95, 5)]).lstate 95 = 5 ∧
      3 * 128 + 15 ∈ { served with lasting := [399] }.lasting ∧ served.conflict = [] ∧ served.fence = none ∧
      served.testable (at_ served).cx 0 0 = true ∧ (withJob [] 1 [] .waiting).testable (at_ served).cx 1 0 = false ∧
      domPresent .s4x2 36 = false ∧ domPresent .s8x4 109 = true ∧ served.rd F.PWR_DCTL_REQ 0 = 1 ∧
      (served [(F.PWR_DCTL_STATE, 1, 0)]).offErr 0 ≠ 0 ∧ served.offErr 0 = 0 ∧ served.resetTr = none ∧ served.swQ = [] ∧
      (∀ k < 113, served.domState k < 2) ∧ served.domState 2 = 0 ∧ served.domState 95 = 1 ∧
      (served [(F.RAS_FMASK_SLICES, 0, 2 ^ 15)]).offErr 95 = 0 ∧ (served [(F.PWR_DCTL_STATE, 0, 2)]).domState 0 = 2 ∧
      served.threadsOf 0 = [] ∧ (stepOf 0 0).dev.threadsOf 0 ≠ [] ∧ (tget served.comb 0).getD [] = [] ∧
      (∀ k ∈ [0, 40, 63, 80, 95, 96, 99], (served [(F.PWR_DCTL_STATE, k, 3)]).domState k = 3) := by
  repeat' apply And.intro
  all_goals decide +kernel

theorem meets_ResetsAndLossesOfTheModule :
    let w : Dev := { served with wanted := [.moduleReset 15] }
    let r : Dev := { served with running := [⟨.moduleReset 1, 0⟩], rstStep := 3 }
    let q : Dev := { served with running := [⟨.ringReset 0, 0⟩], jobs := [{ ring := 0, idx := 0, words := [1], place := .running 5 0 }] }
    (∀ d ∈ [served, q], d.lostFor = 0 ∧ d.rd F.PWR_SEQ_PHASE < 7 ∧ d.upStep = 0 ∧ (∀ x ∈ d.running, x.tr.prio ≠ 1) ∧
      (∀ x ∈ d.wanted, x.prio ≠ 1) ∧ (d.resetTimes.filter fun t => 0 < t + 360000000000).length < max 1 (d.rd F.RAS_CFG_MAXRST)) ∧
      served.pf0Up = true ∧ r.resetTr ≠ none ∧ (set []).pf0Up = false ∧
      (served [(F.RAS_STAT_MSTATE, 0, 1)]).rd F.RAS_STAT_MSTATE = 1 ∧ served.rd F.RAS_STAT_MSTATE ≠ 1 ∧
      q.active = some (.ringReset 0) ∧ q.runsSince (.ringReset 0) + 50000000 ≤ 50000000 ∧ q.leakOf 2 5 + 4 < q.leakT 2 ∧
      served.resetTr = none ∧ w.wanted.find? (fun t => t.prio = 1) = some (.moduleReset 15) ∧
      w.canStart (.moduleReset 15) = true ∧ 15 < 16 ∧ r.rstStep = 3 ∧ r.rstAt + r.resetLimit < 2 ^ 40 ∧ r.lostFor = 0 ∧
      served.pwrgd = false ∧ { served with pwrgd := true }.pwrgd = true := by
  decide +kernel

theorem meets_RegisterAccessesFollowTheirTypes :
    let d := served
    d.pf0Up = true ∧ d.tdiLocked (d.rd F.XLT_WCTL_COLLAR 8191) = false ∧ d.rd F.XLT_WCTL_ST 8191 = 0 ∧
      (served [(F.XLT_WCTL_ST, 8191, 1)]).rd F.XLT_WCTL_ST 8191 ≠ 0 ∧ d.tdiLocked 512 = false ∧ d.rd F.FN_FRCTL_EN 512 = 0 ∧
      (served [(F.FN_FRCTL_EN, 512, 1)]).rd F.FN_FRCTL_EN 512 = 1 ∧ (at_ d).lock = false ∧ d.rd F.TIR_CTL_EN = 0 ∧
      5 ≤ (served [(F.PWR_SEQ_PHASE, 0, 5)]).rd F.PWR_SEQ_PHASE ∧ d.rd F.SHP_CTL_TRACE_EN 31 = 0 ∧
      d.rd F.SHP_CLSTAT_LOADED (d.rd F.SHP_TPROBE_CLUSTER) = 1 ∧ d.rd F.SHP_TPROBE_SLOT < { d with slots := 1 }.slots ∧
      windowOf 0x1C00030 = none ∧ windowOf 0 = none ∧ (regAt 0).map (fun p => (p.1.id, p.2)) = some (Reg.SYS_ID, 0) ∧
      instPresent .s8x4 .always 0 = true ∧ 0 / 2 ^ 22 ≠ 6 ∧ Reg.SYS_ID ∉ [Reg.PTR_PDATA0, Reg.SHP_TDATA0, Reg.RTV_RDATA0, Reg.SHP_CYCLE] := by
  decide +kernel

theorem meets_StepTakesTheFrontCommand : State.reset.pending = [] := by decide

theorem meets_StepKeepsTheTimerTheVariantAndTheQueueInOrder :
    State.reset.tmr < 2 ^ 64 ∧ (at_ (set []) (2 ^ 64 - 1)).tmr < 2 ^ 64 ∧
      (let s : State := { State.reset with lock := true, pending := [.sysLock] }
       s.lock = true ∧ ∀ c ∈ s.pending.head?, mayUnlock c = false) := by
  decide +kernel


/-! ### Worked examples of the spec -/

/-- A check of the state a command answers. -/
def after (i : Instr) (s : State) (f : State → Bool) : Bool :=
  match exec i s with
  | .next t => f t
  | _ => false

/-- Hashing one granule, after R64: both variants. -/
theorem test_hash_of_r64 :
    let d := set [(F.DRM_SALT_SALT, 0, 0x15A3C960F21)]
    d.hashX 0x2B40C7E35A00 = 0x1717C51EC7B ∧ foldHash .s8x4 (d.hashX 0x2B40C7E35A00) = 0x1A1 ∧
      d.stackOf .s8x4 0x2B40C7E35A00 = 1 ∧ d.sliceOf .s8x4 0x2B40C7E35A00 = 1 ∧
      foldHash .s4x4 (d.hashX 0x2B40C7E35A00) = 0xCA ∧ d.stackOf .s4x4 0x2B40C7E35A00 = 2 ∧ d.sliceOf .s4x4 0x2B40C7E35A00 = 10 := by
  decide +kernel

/-- Group, channel and page of row A of the tier example (spec/10). -/
theorem test_tier_of_row_a :
    let d := set [(F.DRM_SALT_SALT, 0, 0x15A3C960F21)]
    d.groupOf .s8x4 0x2B40C7E35A00 = 26 ∧ d.channelOf .s8x4 0x2B40C7E35A00 = 12 ∧ 0x2B40C7E35A00 / 4096 % 16 = 5 := by
  decide +kernel

/-- Choosing a link, after R67. -/
theorem test_path_hash_of_r66 :
    pathHash 0x1234000 9 5 = 0xDA18 ∧ chooseLink [4, 5, 6, 7, 28, 29] 0x1234000 9 5 = some 6 ∧
      chooseLink [4, 5, 7, 28, 29] 0x1234000 9 5 = some 7 := by
  decide +kernel

/-- One changed byte in an 8 + 2 pack, after R378. -/
theorem test_parity_of_r378 :
    holderP 10 1306 = 6 ∧ holderQ 10 1306 = 7 ∧ dataIdx 10 1306 3 = 5 ∧ 0x0000014680003000 / 2 ^ 30 = 1306 ∧
      gfMul (gfPow 5) 0x5A = 0x8F := by
  decide +kernel

/-- Three floating-point adds, after R98: 1.0e8 absorbs 1.0. -/
theorem test_adds_of_r98 :
    fadd (fadd (fadd 0 0x4CBEBC20) 0x3F800000) 0xCCBEBC20 = 0 ∧ fadd (fadd (fadd 0 0x4CBEBC20) 0xCCBEBC20) 0x3F800000 = 0x3F800000 := by
  decide +kernel

/-- A block whose thread runs a descriptor over GiB 0, mapped by one 1 GiB page, with these bytes. -/
def giga (op : Nat) (words : List Nat) (b : List (Nat × Bytes)) : State :=
  at_ { set [(F.FN_XLT_ROOT_EN, 1, 1)] home with
    bayTlb := [(baySet 0 1 30 0, [{ collar := 1, s := 30, p := 0, out := 2 ^ 49, r := true, w := true, a := true }])]
    steps := (stepOf 0 0).dev.steps
    threads := [(0, descT op words)]
    mem := b.foldl (fun m x => memPut m x.1 x.2) [] }
def hdr (h : THdr) : Nat × Bytes := (h.tva, wordBytes h.words)
def words32 (l : List Nat) : Bytes := l.flatMap fun x => leBytes 4 x

/-- What a thread ended with. -/
def ended (s : State) : Option Res := (s.dev.thread 0 0).bind fun t => t.res

/-- One INT4 row, after R245: source header at 64, destination at 128. -/
def int4 : State := giga 3 [3, 0, 64, 128, 1, 0, 0, 0]
  [hdr { tva := 64, layout := 0, fmt := 0, valid := true, qmode := 0, qblk := 0, rowlen := 8, blocks := 1, rows := 1, present := 0, data := 4096, map := 0, scale := 0, dcap := 0, clean := true },
   hdr { tva := 128, layout := 0, fmt := 4, valid := false, qmode := 1, qblk := 0, rowlen := 0, blocks := 0, rows := 0, present := 0, data := 8192, map := 0, scale := 12288, dcap := 1, clean := true },
   (4096, words32 [0x3F800000, 0xC0600000, 0x3E800000, 0x3F400000, 0x40000000, 0xBFA00000, 0x40600000, 0x7FC00000])]

theorem test_int4_row_of_r245 :
    after (.convert 0 0 []) int4 (fun t => t.dev.bytes 8192 4 = [0x92, 0x20, 0xE4, 0x07] ∧
      leNat (t.dev.bytes 12288 8) = 0x3F000000 ∧ ended t = some { status := 0, ra := 0, rb := 1, bay := some 0 }) = true := by
  decide +kernel

/-- One bag with a repeat, a bad index and a mean, after R270. -/
def pooled : State := giga 0x10 [0x10, 0, 64, 8192, 12288, 0, 16384, 1 + 2 * 2 ^ 8]
  [hdr { tva := 64, layout := 0, fmt := 3, valid := true, qmode := 1, qblk := 0, rowlen := 4, blocks := 15625, rows := 1000000, present := 0, data := 2 ^ 25, map := 0, scale := 2 ^ 26, dcap := 0, clean := true },
   (8192, words32 [7, 3, 7, 1200000]), (12288, words32 [0, 4, 4]), (16384, List.replicate 32 1),
   (2 ^ 25 + 12, [4, 4, 0xFE, 8]), (2 ^ 25 + 28, [10, 0xEC, 30, 0]), (2 ^ 26 + 24, words32 [0x3E800000, 0]),
   (2 ^ 26 + 56, words32 [0x3F000000, 0x3F800000])]

theorem test_bag_of_r270 :
    after (.gatherPool 0 0 []) pooled (fun t =>
      t.dev.bytes 16384 32 = words32 [0x408AAAAB, 0xC0B55555, 0x41280000, 0x3FAAAAAB, 0, 0, 0, 0] ∧
      ended t = some { status := 0, ra := 1, rb := 2 + 2 ^ 48, bay := some 0 }) = true := by
  decide +kernel

/-- Posting past the completion ring, after R175: step 2 and step 5 of the example. -/
def ring322 (l : List (Fld × Nat × Nat)) : State :=
  at_ { set ([(F.CXP_LSTAT_UP, 0, 1), (F.FN_STAT_STATE, 17, 1), (F.RNG_CTL_STATE, 322, 1), (F.RNG_BIND_BOUND, 320, 1),
      (F.RNG_BIND_COLLAR, 320, 17), (F.RNG_CTL_SIZE, 322, 8), (F.RNG_CTL_CSIZE, 322, 6)] ++ l) with
    vfEnable := true
    numVfs := 512 } 5000000000

theorem test_tail_doorbell_of_spec05 :
    after (.tailDoorbell 17 2 0x10044 false) (ring322 [(F.RNG_PTR_FETCH, 322, 0xFFE0), (F.RNG_PTR_TAIL, 322, 0xFFE0),
        (F.RNG_CPTR_CTAIL, 322, 0xFFE0), (F.RNG_CPTR_CHEAD, 322, 0xFFE0)])
      (fun t => t.dev.rd F.RNG_PTR_TAIL 322 = 0x10044 ∧ tget t.dev.tdb 322 = some [(0x10044, 5000000000)]) = true := by
  decide +kernel

/-- Retraining links 0 to 3 and 24 to 27 by group window 0 (spec/19), of which 0 and 24 are UP and 1 RETIRED. -/
theorem test_group_window_of_spec19 :
    after (.windowWrite 0x4380000 8 3)
      (at_ { served [(F.LNK_GMASK_MASK, 0, 0x3003), (F.LNK_STAT_STATE, 0, 4), (F.LNK_STAT_STATE, 1, 5), (F.LNK_STAT_STATE, 24, 4),
        (F.LNK_STAT_STATE, 4, 4)] with cables := [0, 3] })
      (fun t => t.dev.lstate 0 = 2 ∧ t.dev.lstate 1 = 5 ∧ t.dev.lstate 24 = 2 ∧ t.dev.lstate 4 = 4 ∧ t.dev.rd F.LNK_CTL_EN 27 = 1 ∧
        t.dev.rd F.LNK_CTL_EN 4 = F.LNK_CTL_EN.rst) = true := by
  decide +kernel

/-- A host read decoded to a kennel (spec/13): the DPA, the grant, and the SPID that does not match. -/
def decoded : Dev :=
  { set [(F.KNL_BIND_STATE, 40, 1), (F.KNL_RANGE_BASE, 40, 100), (F.KNL_RANGE_SIZE, 40, 4), (F.KNL_BIND_COLLAR, 40, 17),
      (F.CXP_SPID_VALID, 3, 1), (F.CXP_SPID_PBRID, 3, 0xA7), (F.CXP_SPID_COLLAR, 3, 17), (F.CXP_LSTAT_UP, 0, 1),
      (F.CXP_LSTAT_CXL, 0, 1), (F.TIR_CTL_EN, 0, 1)] with
    biEnable := true
    cxlMode := 1
    hdm := [{ dec := 1, base := 0x4000000000, size := 2 ^ 34, iw := 2, ig := 4, pos := 2, lock := false, dpa := 0x1900000000 }] }

theorem test_host_read_of_spec13 :
    decoded.dpaOf 0x4001236A40 = some 0x190048DA40 ∧
      after (.memrd 0xA7 7 0x4001236A40 .a none) (at_ decoded) (fun t =>
        (t.dev.ent (0x190048DA40 / 64)).map (fun x => (x.2.owned, x.2.ptrs)) = some (true, [.spid 3])) = true ∧
      after (.memrd 0xB2 7 0x4001236A40 .a none) (at_ decoded) (fun t => t.dev.rd F.CXP_MEMCNT_NOMATCH = 1) = true := by
  decide +kernel

/-- A stack alert (spec/18), steps 2 and 5: 95.5 °C in stack 3 sets bit 1 of the mask and asserts ALERT#. -/
theorem test_alert_of_spec18 :
    after (.sensorSample [(27, 0x5F8)]) (at_ (on 6)) (fun t => t.dev.alerts = 2 ∧ t.dev.rd F.PWR_CAP_THERMAL = 1 ∧
      t.dev.sensorValue 0x11B = some 1528) = true ∧
      after (.sensorSample [(27, 0x5EF)]) (at_ { on 6 with alerts := 0 }) (fun t => t.dev.alerts = 0) = true := by
  decide +kernel

/-- Seven readers and a writer (spec/03), step 4: a fifth sharer sets OVERFLOW and no pointer. -/
theorem test_fifth_sharer_of_spec03 :
    let e : DirEnt := { line := 5, owned := false, collar := 1, p0 := some (.node 5), p1 := some (.node 6), p2 := some (.node 8), p3 := some (.spid 3) }
    let s := at_ { home with dir := [((home.sliceOf .s8x4 320 * 8192 + home.setOf 320) * 16, e)] }
    after (.rdShared (req 320) none) s (fun t => (t.dev.ent 5).map (fun x => (x.2.ovf, x.2.ptrs)) = some (true, e.ptrs)) = true := by
  decide +kernel


/-! ### Well-formedness: for each check a command it refuses, and the same command at the last value it accepts -/

theorem test_ill_formed_are_refused :
    (([.tailDoorbell 513 0 0 false,
     .tailDoorbell 0 64 0 false,
     .tailDoorbell 0 0 4294967296 false,
     .cheadDoorbell 0 0 4294967296 false,
     .fheadDoorbell 0 4294967296 false,
     .doorbell { src := 0, tag := 0, off := 0 } 0 0 0 18446744073709551616,
     .descriptorFetch 4096 (List.replicate 8 0) none,
     .descriptorFetch 0 [0] none,
     .descriptorFetch 0 (List.replicate 7 0 ++ [18446744073709551616]) none,
     .dispatch 0 4294967296] ++
      [.threadStart 32 0,
     .threadStart 0 8,
     .walkStart 4,
     .walkComplete 1024 0 [],
     .windowCloseDrainEnd 8192 [],
     .msixUnmask 0 64,
     .rdOnce { src := 0, tag := 0, off := 0 } 5 none,
     .wrMask { src := 0, tag := 0, off := 0 } 18446744073709551616 [] none,
     .cmp { src := 0, tag := 0, off := 0 } 8,
     .snoopTimeout 16384 0] ++
      [.fabricTimeout 65536,
     .birspTimeout 512 0,
     .memrddata 4096 0 0 none,
     .memrddata 0 0 4503599627370496 none,
     .hdmDecoderCommit 8 0 0 0 0 0 0 false false,
     .getEventRecords 5,
     .mailboxUnsupported 65536,
     .getVersion 2,
     .ideKm 0 0 0 0 2 0,
     .ideKm 0 0 0 0 0 8] ++
      [.linkDetect 96,
     .retryReq 0 1024,
     .credit 0 8 0,
     .cablePresenceChange 13 false,
     .beacon 16384 0 0,
     .beacon 0 281474976710656 0,
     .heelDrain 0 281474976710656,
     .heelCut 0 0 281474976710656 [],
     .heelRollback 0 281474976710656 0 [],
     .heelRolled 0 281474976710656] ++
      [.appendAck 0 0 4294967296 false,
     .revocationStart 2048,
     .ringBind 0 0 8 false,
     .garbageCollection 32 false,
     .leashWrite 4 0 false 0,
     .domainSwitch 113 false,
     .svnAdvance 128,
     .ptrPdata0 16,
     .windowWrite 0 3 0,
     .thermalTrip 65536] ++
      [.powerSample 65536 0,
     .powerSample 0 65536,
     .lostlock 20,
     .setTid 256,
     .getPldmVersion 64,
     .cxlLinkUp 3 0 false false,
     .mctpControl 256 0,
     .entdaa 128,
     .ack { src := 16384, tag := 0, off := 0, link := 0, collar := 0 },
     .ack { src := 0, tag := 65536, off := 0, link := 0, collar := 0 }] ++
      [.ack { src := 0, tag := 0, off := 1125899906842624, link := 0, collar := 0 },
     .ack { src := 0, tag := 0, off := 0, link := 96, collar := 0 },
     .ack { src := 0, tag := 0, off := 0, link := 0, collar := 1024 }] : List Instr)).all (fun i => !i.wf) = true := by decide +kernel

theorem test_well_formed_are_accepted :
    (([.tailDoorbell 512 0 0 false,
     .tailDoorbell 0 63 0 false,
     .tailDoorbell 0 0 4294967295 false,
     .cheadDoorbell 0 0 4294967295 false,
     .fheadDoorbell 0 4294967295 false,
     .doorbell { src := 0, tag := 0, off := 0 } 0 0 0 18446744073709551615,
     .descriptorFetch 4095 (List.replicate 8 0) none,
     .descriptorFetch 0 (List.replicate 8 0) none,
     .descriptorFetch 0 (List.replicate 8 0) none,
     .dispatch 0 4294967295] ++
      [.threadStart 31 0,
     .threadStart 0 7,
     .walkStart 3,
     .walkComplete 1023 0 [],
     .windowCloseDrainEnd 8191 [],
     .msixUnmask 0 63,
     .rdOnce { src := 0, tag := 0, off := 0 } 4 none,
     .wrMask { src := 0, tag := 0, off := 0 } 18446744073709551615 [] none,
     .cmp { src := 0, tag := 0, off := 0 } 7,
     .snoopTimeout 16383 0] ++
      [.fabricTimeout 65535,
     .birspTimeout 511 0,
     .memrddata 4095 0 0 none,
     .memrddata 0 0 4503599627370495 none,
     .hdmDecoderCommit 7 0 0 0 0 0 0 false false,
     .getEventRecords 4,
     .mailboxUnsupported 65535,
     .getVersion 1,
     .ideKm 0 0 0 0 1 0,
     .ideKm 0 0 0 0 0 7] ++
      [.linkDetect 95,
     .retryReq 0 1023,
     .credit 0 7 0,
     .cablePresenceChange 12 false,
     .beacon 16383 0 0,
     .beacon 0 281474976710655 0,
     .heelDrain 0 281474976710655,
     .heelCut 0 0 281474976710655 [],
     .heelRollback 0 281474976710655 0 [],
     .heelRolled 0 281474976710655] ++
      [.appendAck 0 0 4294967295 false,
     .revocationStart 2047,
     .ringBind 0 0 7 false,
     .garbageCollection 31 false,
     .leashWrite 3 0 false 0,
     .domainSwitch 112 false,
     .svnAdvance 127,
     .ptrPdata0 15,
     .windowWrite 0 8 0,
     .thermalTrip 65535] ++
      [.powerSample 65535 0,
     .powerSample 0 65535,
     .lostlock 19,
     .setTid 255,
     .getPldmVersion 63,
     .cxlLinkUp 8 0 false false,
     .mctpControl 255 0,
     .entdaa 127] : List Instr)).all Instr.wf = true := by decide +kernel

end Sys2Proof.Tests
end

section
/-! Proofs of the statement on translation walks and XLATE_INVAL: first what each shared operation of that chapter does, then
one theorem for each case of a command the statement speaks of. -/
namespace Sys2Proof.Translation
open Sys2Proof Sys2Proof.Machine

/-! ### Shared operations -/

/-- A lookup of the shared cache that misses changes nothing. -/
theorem lookupShr_miss {d d' : Dev} {collar tva : Nat} (h : d.lookupShr collar tva = (d', none)) : d' = d := by
  unfold Dev.lookupShr at h
  split at h
  · exact (Prod.mk.inj h).1.symm
  · split at h
    · exact nomatch (Prod.mk.inj h).2
    · exact (Prod.mk.inj h).1.symm

/-- R130: where one walk waits, it is the next, whichever stream took the last turn. -/
theorem nextWalk_singleton (w : Walk) (last : Nat) : nextWalk [w] last = some w := by
  by_cases h : last < w.strm <;> simp [nextWalk, h]

/-- Ending a descriptor puts its job, and so every job of its ring and index, at its end. -/
theorem endJob_place (d : Dev) (ring idx : Nat) (x : Res) :
    ∀ k ∈ (d.endJob ring idx x).jobs, k.ring = ring → k.idx = idx → k.place = .ended x := by
  intro k hk hr hi
  obtain ⟨j, -, hj⟩ := List.mem_map.mp hk
  by_cases h : j.ring = ring ∧ j.idx = idx
  · simp only [h, decide_true, Bool.and_self, if_true] at hj
    exact hj ▸ rfl
  · rw [if_neg (by simpa using h)] at hj
    exact absurd ⟨hj ▸ hr, hj ▸ hi⟩ h

/-- With no combining segment, flushing leaves the run as it is. -/
theorem flushAll_of_no_segments (w : Who) (by_ : Option (Nat × Nat × Nat)) (p : Nat → CombSeg → Bool) (r : Run)
    (h : r.d.comb = []) : (flushAll w by_ p).run r = ((), r) := by
  simp only [flushAll, StateT.run_bind, StateT.run_get, pure_bind, h, List.forIn_nil]
  rfl

/-- With no combining segment there is nothing to flush. -/
theorem flushSegs_of_no_segments {d : Dev} (h : d.comb = []) (c : Cx) (cls : Nat) (env : List Reply) (p : CombSeg → Bool) :
    d.flushSegs c cls env p = some d := by
  simp only [Dev.flushSegs]
  rw [flushAll_of_no_segments _ _ _ _ h]
  rfl

/-- A cached translation that is left passes the filter. -/
theorem filterTlb_keeps_only (d : Dev) (keep : Tlb → Bool) :
    ∀ x ∈ (d.filterTlb keep).bayTlb ++ (d.filterTlb keep).shrTlb, ∀ e ∈ x.2, keep e = true := by
  have hset (t : Tbl (List Tlb)) :
      ∀ x ∈ (t.map fun (k, l) => (k, l.filter keep)).filter fun (_, l) => !l.isEmpty, ∀ e ∈ x.2, keep e = true := by
    intro x hx e he
    obtain ⟨y, -, rfl⟩ := List.mem_map.mp (List.mem_filter.mp hx).1
    exact (List.mem_filter.mp he).2
  exact fun x hx => (List.mem_append.mp hx).elim (hset _ x) (hset _ x)

/-- With an empty directory there is no copy to recall. -/
theorem recallAll_of_empty_dir {d : Dev} (h : d.dir = []) (c : Cx) (env : List Reply) (p : DirEnt → Bool) :
    d.recallAll c env p = some d := by
  simp only [Dev.recallAll, h]
  rfl

/-- Letting a ring go on keeps the fields of every register but its own. -/
theorem invalGo_rd (d : Dev) (ring : Nat) (f : Fld) (i : Nat) (hr : f.reg < 256) (hl : f.lo < 64)
    (hf : f.reg ≠ F.RNG_HOLD_HOLD.reg) : (d.invalGo ring).rd f i = d.rd f i :=
  Dev.rd_wr_ne _ _ _ _ _ _ (Fld.key_ne_of_reg _ _ (by decide) hr (by decide) hl hf)

/-! ### Walks -/

/-- R130: a free walker starts the one demand walk that waits, and counts it. -/
theorem walkStart_starts_waiting (s : State) (g : Nat) (w : Walk) (d : Dev) (hw : s.dev.walks = [w]) (hs : w.started = false)
    (hd : w.demand = true) (hg : s.dev.walkGroup w = g) (hf : s.dev.bitAt F.RAS_FMASK_WALKERS 0 g = false)
    (hmiss : { s.dev with walkTurn := tset s.dev.walkTurn g w.strm }.lookupShr w.collar (w.page * 4096) = (d, none)) :
    exec (.walkStart g) s = .next (s.withDev
      { d.inc F.XLT_MISS_WALK 0 with walks := [{ w with started := true }] }) := by
  have hmine : s.dev.walks.filter (fun w => s.dev.walkGroup w = g) = [w] := by simp [hw, hg]
  have hd' : d.walks = [w] := by rw [lookupShr_miss hmiss]; exact hw
  dsimp only at hmiss
  simp only [exec, execWalkStart, State.run_eq]
  simp [hmine, hf, hs, hd, nextWalk_singleton, hmiss, mapIf, Walk.isOf, hd']

/-- R142: a stale walk that ends waits to start again. -/
theorem walkComplete_restarts_stale (s : State) (col page : Nat) (env : List Reply) (w : Walk)
    (hw : s.dev.walks.find? (fun x => x.isOf col page && x.started) = some w) (hs : w.stale = true) :
    exec (.walkComplete col page env) s = .next (s.withDev { s.dev with
      walks := mapIf (fun x => x.isOf col page) (fun x => { x with started := false, stale := false }) s.dev.walks }) := by
  simp only [exec, execWalkComplete, State.run_eq, hw, hs, if_true]

/-- R123: any other walk that ends is removed, and its waiting streams get what the tables give. -/
theorem walkComplete_serves (s : State) (col page : Nat) (env : List Reply) (w : Walk) (res : Except XF (Tlb × Nat)) (r : Run)
    (hw : s.dev.walks.find? (fun x => x.isOf col page && x.started) = some w) (hs : w.stale = false)
    (hr : (endWalk s.cx w).run { d := s.dev, env := env } = (res, r)) (hb : r.busy = false) :
    exec (.walkComplete col page env) s = .next (s.withDev
      ({ r.d with walks := r.d.walks.filter fun x => !x.isOf col page }.serveWaiters s.cx w res)) := by
  simp only [exec, execWalkComplete, State.run_eq, hw, hs, hr, hb, Bool.false_eq_true, if_false]

/-! ### XLATE_INVAL -/

/-- R140: an XLATE_INVAL that is refused ends DENIED. -/
theorem invalRun_refused {d : Dev} {ring idx scope : Nat} {j : Job} (h : d.invalStart ring idx scope = some (j, true)) (c : Cx)
    (env : List Reply) (hit : List Nat → Tlb → Bool) :
    d.invalRun c ring idx scope env hit = (d.endJob ring idx { status := 0x12 }).invalGo ring := by
  simp only [Dev.invalRun, h]

/-- The block after steps 1 to 4 of R142 for an XLATE_INVAL of `target` that finds no combining segment. -/
def invalidated (d : Dev) (ring idx target : Nat) (hit : Tlb → Bool) : Dev :=
  let kept := ((d.updJob ring idx fun j => { j with place := .control }).invalGo ring).filterTlb
    fun e => !(e.collar = target && hit e)
  { kept with
    walks := (kept.walks.filter fun (x : Walk) => x.collar ≠ target || x.demand || x.started).map fun (x : Walk) =>
      if x.collar = target && x.started then { x with stale := true } else x,
    inval := some ⟨ring, idx, target⟩ }.bump F.XLT_GEN_GEN 0

/-- With no combining segment, an XLATE_INVAL that may start runs steps 1 to 4 of R142. -/
theorem invalRun_starts {d : Dev} {ring idx scope : Nat} {j : Job} (h : d.invalStart ring idx scope = some (j, false))
    (hc : d.comb = []) (c : Cx) (env : List Reply) (hit : List Nat → Tlb → Bool) :
    d.invalRun c ring idx scope env hit = invalidated d ring idx (bits (j.words.getD 2 0) 12 10) (hit j.words) := by
  simp only [Dev.invalRun, h, flushSegs_of_no_segments hc]
  rfl

section
variable (d : Dev) (ring idx target : Nat) (hit : Tlb → Bool)

/-- R141: the XLATE_INVAL is in progress. -/
theorem invalidated_inval : (invalidated d ring idx target hit).inval = some ⟨ring, idx, target⟩ := rfl

/-- R142: XLT_GEN steps by one. -/
theorem invalidated_gen : (invalidated d ring idx target hit).rd F.XLT_GEN_GEN =
    (d.rd F.XLT_GEN_GEN + 1) % 2 ^ F.XLT_GEN_GEN.w := by
  refine (Dev.rd_bump_same _ _ _ _).trans (congrArg (fun n => (n + 1) % 2 ^ F.XLT_GEN_GEN.w) ?_)
  exact invalGo_rd (d.updJob ring idx _) ring F.XLT_GEN_GEN 0 (by decide) (by decide) (by decide)

/-- R142: no translation of the target that is hit is left in either cache. -/
theorem invalidated_no_hit : ∀ x ∈ (invalidated d ring idx target hit).bayTlb ++ (invalidated d ring idx target hit).shrTlb,
    ∀ e ∈ x.2, e.collar = target → hit e = false := by
  intro x hx e he hcol
  simpa [hcol] using filterTlb_keeps_only _ _ x hx e he

/-- R142: every walk of the target in flight is stale. -/
theorem invalidated_stale : ∀ w ∈ (invalidated d ring idx target hit).walks, w.collar = target → w.started = true →
    w.stale = true := by
  intro w hw hcol hst
  obtain ⟨v, -, hv⟩ := List.mem_map.mp hw
  by_cases h : v.collar = target ∧ v.started = true
  · simp only [h, decide_true, Bool.and_self, if_true] at hv
    exact hv ▸ rfl
  · rw [if_neg (by simpa using h)] at hv
    exact absurd ⟨hv ▸ hcol, hv ▸ hst⟩ h

end

/-- Does a page meet the range an XLATE_INVAL RANGE names? -/
def meetsRange (words : List Nat) (e : Tlb) : Bool :=
  decide (e.p * 2 ^ e.s < words.getD 3 0 + bits (words.getD 4 0) 0 32 * 4096) &&
    decide (words.getD 3 0 < (e.p + 1) * 2 ^ e.s)

/-- A page that does not meet the range lies below or above it. -/
theorem meetsRange_eq_false (words : List Nat) (e : Tlb) : meetsRange words e = false ↔
    (e.p + 1) * 2 ^ e.s ≤ words.getD 3 0 ∨ words.getD 3 0 + bits (words.getD 4 0) 0 32 * 4096 ≤ e.p * 2 ^ e.s := by
  simp only [meetsRange, Bool.and_eq_false_iff, decide_eq_false_iff_not, Nat.not_lt]
  exact or_comm

/-- R142: an XLATE_INVAL RANGE that may start invalidates the pages of TARGET that meet its range. -/
theorem xlateInvalRange_starts (s : State) (ring idx : Nat) (env : List Reply) (j : Job) (hc : s.dev.comb = [])
    (h : s.dev.invalStart ring idx 0 = some (j, false)) : exec (.xlateInvalRange ring idx env) s =
      .next (s.withDev (invalidated s.dev ring idx (bits (j.words.getD 2 0) 12 10) (meetsRange j.words))) :=
  congrArg (fun d => Host.Outcome.next (s.withDev d)) (invalRun_starts h hc s.cx env meetsRange)

/-- R142: an XLATE_INVAL FUNCTION that may start invalidates every page of TARGET. -/
theorem xlateInvalFunction_starts (s : State) (ring idx : Nat) (env : List Reply) (j : Job) (hc : s.dev.comb = [])
    (h : s.dev.invalStart ring idx 1 = some (j, false)) : exec (.xlateInvalFunction ring idx env) s =
      .next (s.withDev (invalidated s.dev ring idx (bits (j.words.getD 2 0) 12 10) fun _ => true)) :=
  congrArg (fun d => Host.Outcome.next (s.withDev d)) (invalRun_starts h hc s.cx env fun _ _ => true)

/-- R140: an XLATE_INVAL FUNCTION that is refused ends DENIED. -/
theorem xlateInvalFunction_refused (s : State) (ring idx : Nat) (env : List Reply) (j : Job)
    (h : s.dev.invalStart ring idx 1 = some (j, true)) : exec (.xlateInvalFunction ring idx env) s =
      .next (s.withDev ((s.dev.endJob ring idx { status := 0x12 }).invalGo ring)) :=
  congrArg (fun d => Host.Outcome.next (s.withDev d)) (invalRun_refused h s.cx env fun _ _ => true)

/-- R142: the drain of the XLATE_INVAL in progress ends exactly when no access of the old generation is left. -/
theorem xlateInvalDrainEnd_completes (s : State) (v : Inval) (h : s.dev.inval = some v) :
    exec .xlateInvalDrainEnd s = .next (if s.dev.oldCount = 0 then
      s.withDev ({ s.dev with inval := none }.endJob v.ring v.idx { status := 0 }) else s) := by
  simp only [exec, execXlateInvalDrainEnd, State.run_eq, h]
  split <;> rfl

/-! ### Closing a window -/

/-- R144: XLATE_INVAL WINDOW of an OPEN window makes it CLOSING. -/
theorem xlateInvalWindow_open (s : State) (ring idx : Nat) (j : Job) (h : s.dev.invalStart ring idx 2 = some (j, false))
    (ho : s.dev.rd F.XLT_WCTL_ST (j.words.getD 5 0 % 8192) = 1) : exec (.xlateInvalWindow ring idx) s = .next (s.withDev
      { ((s.dev.updJob ring idx fun j => { j with place := .control }).invalGo ring).wr F.XLT_WCTL_ST
          (j.words.getD 5 0 % 8192) 2 with closing := s.dev.closing ++ [(j.words.getD 5 0 % 8192, ring, idx)] }) := by
  simp only [exec, execXlateInvalWindow, State.run_eq, h, ho, ne_eq, not_true, if_false]
  rfl

/-- R144: XLATE_INVAL WINDOW of any other window ends OK at once. -/
theorem xlateInvalWindow_not_open (s : State) (ring idx : Nat) (j : Job) (h : s.dev.invalStart ring idx 2 = some (j, false))
    (ho : s.dev.rd F.XLT_WCTL_ST (j.words.getD 5 0 % 8192) ≠ 1) : exec (.xlateInvalWindow ring idx) s =
      .next (s.withDev ((s.dev.endJob ring idx { status := 0 }).invalGo ring)) := by
  simp only [exec, execXlateInvalWindow, State.run_eq, h, ne_eq, ho, not_false_eq_true, if_true]

/-- R144: a window with a request in flight goes on closing. -/
theorem windowCloseDrainEnd_in_flight (s : State) (w : Nat) (env : List Reply) (x : Nat × Nat × Nat)
    (h : s.dev.closing.find? (fun y => y.1 = w) = some x) (hn : s.dev.rd F.XLT_WINFLT_COUNT w ≠ 0) :
    exec (.windowCloseDrainEnd w env) s = .next s := by
  simp only [exec, execWindowCloseDrainEnd, State.run_eq, h, ne_eq, hn, not_false_eq_true, if_true]
  rfl

/-- R144: with nothing in flight and no copy out, a closing window becomes FREE and its descriptor ends OK. -/
theorem windowCloseDrainEnd_drained (s : State) (w : Nat) (env : List Reply) (x : Nat × Nat × Nat)
    (h : s.dev.closing.find? (fun y => y.1 = w) = some x) (hn : s.dev.rd F.XLT_WINFLT_COUNT w = 0) (hd : s.dev.dir = []) :
    exec (.windowCloseDrainEnd w env) s = .next (s.withDev
      ({ s.dev.wr F.XLT_WCTL_ST w 0 with closing := s.dev.closing.filter (·.1 ≠ w) }.endJob x.2.1 x.2.2 { status := 0 })) := by
  simp only [exec, execWindowCloseDrainEnd, State.run_eq, h, ne_eq, hn, not_true, if_false, recallAll_of_empty_dir hd]

/-! ### The statement -/

/-- Settles O4: each command does what its theorem above says, and the statement's clauses are read off the block after it. -/
theorem translationsAreWalkedAndInvalidated : Obligations.TranslationsAreWalkedAndInvalidated := by
  intro s
  refine ⟨fun g w d hw hs hd hg hf hmiss => ?_, fun col page env w hw => ⟨?_, fun res r => ?_⟩,
    fun ring idx env j hc => ⟨fun h => ?_, fun h => ?_, fun h => ?_⟩, ?_, fun ring idx j h => ?_,
    fun w env x h => ⟨?_, fun hn hd => ?_⟩⟩
  · refine ⟨_, walkStart_starts_waiting s g w d hw hs hd hg hf hmiss, rfl, ?_⟩
    rw [lookupShr_miss hmiss]
    exact Dev.rd_inc_same _ F.XLT_MISS_WALK 0 1
  · exact walkComplete_restarts_stale s col page env w hw
  · exact walkComplete_serves s col page env w res r hw
  · exact ⟨_, xlateInvalRange_starts s ring idx env j hc h, invalidated_inval .., invalidated_gen ..,
      fun x hx e he hcol => (meetsRange_eq_false j.words e).mp (invalidated_no_hit _ _ _ _ _ x hx e he hcol)⟩
  · exact ⟨_, xlateInvalFunction_starts s ring idx env j hc h, invalidated_inval ..,
      fun x hx e he hcol => Bool.noConfusion (invalidated_no_hit _ _ _ _ _ x hx e he hcol), invalidated_stale _ _ _ _ _⟩
  · exact ⟨_, xlateInvalFunction_refused s ring idx env j h, rfl, rfl, endJob_place s.dev ring idx _⟩
  · exact xlateInvalDrainEnd_completes s
  · by_cases ho : s.dev.rd F.XLT_WCTL_ST (j.words.getD 5 0 % 8192) = 1
    · refine ⟨_, xlateInvalWindow_open s ring idx j h ho, ?_⟩
      rw [if_pos ho]
      exact ⟨Dev.rd_wr_same _ F.XLT_WCTL_ST _ 2, rfl⟩
    · refine ⟨_, xlateInvalWindow_not_open s ring idx j h ho, ?_⟩
      rw [if_neg ho]
      exact ⟨rfl, endJob_place s.dev ring idx _⟩
  · exact windowCloseDrainEnd_in_flight s w env x h
  · refine ⟨_, windowCloseDrainEnd_drained s w env x h hn hd, Dev.rd_wr_same _ F.XLT_WCTL_ST w 0, fun y hy => ?_,
      endJob_place _ x.2.1 x.2.2 _⟩
    exact of_decide_eq_true (List.mem_filter.mp hy).2

end Sys2Proof.Translation
end
